-- ==== Sys2Proof/Word.lean ====
section
/-! DEFINITION. The word types of the block: what the spec treats as bits (00_scope.md R10, all unsigned). -/

namespace Sys2Proof

/-- One byte of a command packet or of a block on the link (30_encoding.md R70, 20_memory.md R53). -/
abbrev Byte := BitVec 8

/-- A raw word of the sequencer: 32 bits (00_scope.md R8 `RW`, R14 RawWord). -/
abbrev Word := BitVec 32

/-- A ring entry: `UNIT` × 8 = 16 bits (10_state.md R26). -/
abbrev Entry := BitVec 16

/-- One extracted sample field: `FW` = 10 bits (00_scope.md R8, 41_decoder.md R121). -/
abbrev Sample := BitVec 10

/-- An operation code of the operation port, `op[3:0]` (30_encoding.md R70, R71). -/
abbrev Op4 := BitVec 4

end Sys2Proof
end

