-- ==== Sys2Proof/Syntax.lean ====
section
/-! DEFINITION. The operations of the block, one constructor per row of spec/opcode_table.json, and the moves
an interleaving is made of. -/

namespace Sys2Proof

/-- The operations the spec treats as instructions (00_scope.md R2, 30_encoding.md R71, R74). -/
inductive Instr where
  /-- START_CAPTURE, FG, code 0x1 (40_capture.md R101). -/
  | startCapture
  /-- WAIT_CAPTURE, FG, code 0x2 (40_capture.md R104). -/
  | waitCapture
  /-- DECODE, FG, code 0x3 (41_decoder.md R122). -/
  | decode
  /-- LINK_INIT, LINK, code 0x8 (42_streaming.md R141). -/
  | linkInit
  /-- CMD_RX with a payload whose length is not 2 (42_streaming.md R143). -/
  | cmdBadLen (payload : List Byte)
  /-- CMD_RX with two bytes, the first of them not 0x01 (42_streaming.md R144). -/
  | cmdBadOp (byte0 byte1 : Byte)
  /-- CMD_RX with the bytes 01 00 (42_streaming.md R145). -/
  | grantZero
  /-- CMD_RX with the bytes 01 N, N in 1 to 255 (42_streaming.md R146). -/
  | grantCredit (n : Byte)
  /-- CHUNK_ACK, LINK, code 0xA, a block in flight (42_streaming.md R155). -/
  | chunkAck
  /-- CHUNK_ACK, LINK, code 0xA, no block in flight (42_streaming.md R156). -/
  | chunkAckStray
  /-- SEQ_PUSH, the sequencer's step with its drawn word (40_capture.md R107). -/
  | seqPush (w : Word)
  /-- CE_COPY, the copy engine's step (40_capture.md R109). -/
  | ceCopy
  /-- BEGIN_SEND, the streaming state machine's step (42_streaming.md R152). -/
  | beginSend
  /-- A reserved operation code (30_encoding.md R72). -/
  | reserved (op : Op4)
deriving DecidableEq, Repr

/-- The four agents that take steps (00_scope.md R13). -/
inductive Agent where
  | fg
  | seq
  | ce
  | link
deriving DecidableEq, Repr

/-- One entry of an interleaving: who moves next (00_scope.md R12, R13; 60_exceptions.md R174). From `request` on they are
moves of the environment, not operations an agent of the block takes up. -/
inductive Move where
  /-- FG issues, or goes on waiting in, the next operation of its program. -/
  | fg
  /-- LINK takes a pending link bring-up (60_exceptions.md R173; of several pending events any may be the next, R174). -/
  | linkInit
  /-- LINK takes the pending command, if one is (R173). -/
  | cmdRx
  /-- LINK takes the completion of the oldest pending transfer (R173: one per entry of `xfer_q`, in order). -/
  | chunkAck
  /-- SEQ produces the drawn word `w`. -/
  | seqPush (w : Word)
  /-- CE moves one word. -/
  | ceCopy
  /-- LINK takes the streaming state machine's own step. -/
  | beginSend
  /-- A byte string that is no event of R173 reaches the operation port: a reserved code or no request (log entry 15). -/
  | request (bytes : List Byte)
  /-- FG's own program goes on with one more operation: the foreground loop is unbounded (70_reset_and_hazards.md R195; log
  entry 2). -/
  | fgExtend (op : Op4)
  /-- The host brings the link up: one more LINK_INIT is pending, "the host's choice" (R173). -/
  | hostLinkUp
  /-- The host completes the armed receive with these bytes (R173; 42_streaming.md R162). -/
  | hostCommand (payload : List Byte)
  /-- The external hardware setup takes place (70_reset_and_hazards.md R193 item 1). -/
  | hwSetup
  /-- The external watchdog or reset resets the device (70_reset_and_hazards.md R190, R191). -/
  | deviceReset
deriving DecidableEq, Repr, Inhabited

end Sys2Proof
end

