-- ==== Sys2Proof/Config.lean ====
section
/-! DEFINITION. The implementation parameters and the literals of 00_scope.md R8, each a named constant, and the free
values: opaque constants with no body, one for every draw the spec leaves open. -/

namespace Sys2Proof.Config

/-- Channels per sample, `CH` (00_scope.md R8). -/
def ch : Nat := 6

/-- 10-bit fields per raw word, `FIELDS` (00_scope.md R8). -/
def fields : Nat := 3

/-- Field width in bits, `FW` (00_scope.md R8); also the shift of 41_decoder.md R121. -/
def fw : Nat := 10

/-- The extraction mask 0x3FF (41_decoder.md R121). -/
def fieldMask : Word := 0x3FF#32

/-- Bytes per entry on the link, `UNIT` (00_scope.md R8). -/
def unit : Nat := 2

/-- Data-channel chunk payload in bytes, `CHUNK` (00_scope.md R8). -/
def chunk : Nat := 64

/-- Command packet length in bytes, `CMD_LEN` (00_scope.md R8). -/
def cmdLen : Nat := 2

/-- The longest payload length the transport reports (30_encoding.md R70: `len`, 0 to 255). -/
def maxPayload : Nat := 255

/-- The grant-credit opcode byte, `OP_GRANT` (00_scope.md R8). -/
def opGrant : Byte := 0x01#8

/-- How a block's identity is formed, `ID_MODE` (00_scope.md R8, 10_state.md R37). -/
inductive IdMode where
  | slot
  | seq
deriving DecidableEq, Repr

/-- The parameters "the model takes as arguments" (00_scope.md R8). -/
structure Params where
  /-- `SPB`, samples per block. -/
  spb : Nat
  /-- `RING_N`, slots of the decoded-block ring. -/
  ringN : Nat
  /-- `FIFO_DEPTH`, words the sequencer's receive queue holds. -/
  fifoDepth : Nat
  /-- `ID_MODE`. -/
  idMode : IdMode
deriving DecidableEq, Repr

/-- The constraints of 00_scope.md R8; a parameter set that breaks one is refused (R9). -/
def Params.ok (p : Params) : Bool :=
  decide (1 ≤ p.spb) && decide (2 ≤ p.ringN) && decide (1 ≤ p.fifoDepth)

/-- The defaults of 00_scope.md R8; DESIGN CHOICE: `RING_N` and `FIFO_DEPTH` have none there, so the values of the
spec's own examples stand (notes/assumptions/4.md). -/
def Params.default : Params := { spb := 32, ringN := 4, fifoDepth := 4, idMode := .slot }

/-- `BUFLEN` = 2 × `SPB` (00_scope.md R8). -/
def Params.bufLen (p : Params) : Nat := 2 * p.spb

/-- Entries of one ring slot, `SPB` × `CH` (10_state.md R26). -/
def Params.slotLen (p : Params) : Nat := p.spb * ch

/-- `BB` = `SPB` × `CH` × `UNIT`, the block size in bytes (00_scope.md R8). -/
def Params.blockBytes (p : Params) : Nat := p.spb * ch * unit

/-- Word j of capture buffer b after the e-th reset: "every word a draw" (10_state.md R23). Free value, log entry 7. -/
opaque bufAtReset (e b j : Nat) : Word

/-- Entry e of ring slot s after the r-th reset: "every entry a draw" (10_state.md R26). Free value, log entry 7. -/
opaque ringAtReset (r s e : Nat) : Entry

/-- The sequencer's program position after the e-th reset: unspecified (10_state.md R33). Free value, log entry 8. -/
opaque seqPcAtReset (e : Nat) : Nat

/-- `SEQ_PROGRAM_START`, the start of the sequencer's program (40_capture.md R101). Free value, log entry 8. -/
opaque seqProgramStart : Nat

/-- The d-th draw read as a sequencer program position (40_capture.md R107). Free value, log entry 8. -/
opaque freeSeqPc (d : Nat) : Nat

/-- Byte k of the d-th draw read as a byte string (42_streaming.md R153, R154). Free value, log entry 10. -/
opaque freeByte (d k : Nat) : Byte

/-- The d-th draw read as a move: who steps next when the state lists no move (60_exceptions.md R174). Free value,
log entry 1. -/
opaque freeMove (d : Nat) : Move

end Sys2Proof.Config
end

