-- ==== Sys2Proof/WellFormed.lean ====
section
/-! DEFINITION. Which terms of `Instr` stand for an input of the block: the operand ranges of 30_encoding.md R71 to R75. -/

namespace Sys2Proof

/-- The codes that spell an operation (30_encoding.md R71); the others are reserved (R72). -/
def Op4.isAssigned (op : Op4) : Bool :=
  op == 0x1#4 || op == 0x2#4 || op == 0x3#4 || op == 0x8#4 || op == 0x9#4 || op == 0xA#4

/-- An instruction is well formed when its operands are ones its row of the table admits (30_encoding.md R72, R74). -/
def Instr.wf : Instr → Bool
  | .startCapture => true
  | .waitCapture => true
  | .decode => true
  | .linkInit => true
  | .cmdBadLen payload => decide (payload.length ≠ Config.cmdLen) && decide (payload.length ≤ Config.maxPayload)
  | .cmdBadOp byte0 _ => byte0 != Config.opGrant
  | .grantZero => true
  | .grantCredit n => n != 0#8
  | .chunkAck => true
  | .chunkAckStray => true
  | .seqPush _ => true
  | .ceCopy => true
  | .beginSend => true
  | .reserved op => !Op4.isAssigned op

end Sys2Proof
end

