-- ==== Sys2Proof/Decode.lean ====
section
/-! DEFINITION. The decoder of requests (30_encoding.md R70 to R76), total on any bytes, and the encoder written from the
same tables. A request is the bytes of 30_encoding.md R78: the `OP4` code in the low half of a byte, then the payload. -/

namespace Sys2Proof

/-- Why a byte string is no request. -/
inductive DecodeError where
  /-- No byte at all: there is no operation code. -/
  | empty
  /-- The first byte is above 0x0F: "An `OP4` word is always 4 bits" (30_encoding.md R80). -/
  | badOpByte (b : Byte)
  /-- Bytes follow an operation that takes no operand (30_encoding.md R71). -/
  | strayPayload (op : Op4) (n : Nat)
  /-- A payload longer than any `len` the transport reports (30_encoding.md R70). -/
  | payloadTooLong (n : Nat)
deriving DecidableEq, Repr

/-- The row a CMD_RX payload selects; the conditions are tested in the order of 30_encoding.md R74. -/
def selectRow (payload : List Byte) : Instr :=
  if payload.length ≠ Config.cmdLen then .cmdBadLen payload
  else if payload.getD 0 0#8 ≠ Config.opGrant then .cmdBadOp (payload.getD 0 0#8) (payload.getD 1 0#8)
  else if payload.getD 1 0#8 = 0#8 then .grantZero
  else .grantCredit (payload.getD 1 0#8)

/-- The row of code 0xA: CHUNK_ACK and CHUNK_ACK_STRAY share it, and `in_flight` tells them apart (42_streaming.md R155,
R156; log entry 14). -/
def ackRow (inFlight : Bool) : Instr :=
  if inFlight then .chunkAck else .chunkAckStray

/-- An operation whose request carries nothing after the code (30_encoding.md R71). -/
def noOperand (i : Instr) (op : Op4) (payload : List Byte) : Except DecodeError Instr :=
  if payload = [] then .ok i else .error (.strayPayload op payload.length)

/-- The table of 30_encoding.md R71, with the reserved codes of R72. -/
def decodeOp (inFlight : Bool) (op : Op4) (payload : List Byte) : Except DecodeError Instr :=
  if op = 0x1#4 then noOperand .startCapture op payload
  else if op = 0x2#4 then noOperand .waitCapture op payload
  else if op = 0x3#4 then noOperand .decode op payload
  else if op = 0x8#4 then noOperand .linkInit op payload
  else if op = 0x9#4 then
    if payload.length ≤ Config.maxPayload then .ok (selectRow payload)
    else .error (.payloadTooLong payload.length)
  else if op = 0xA#4 then noOperand (ackRow inFlight) op payload
  else noOperand (.reserved op) op payload

/-- Reading a request. `inFlight` is the flag `in_flight` at the moment the request is taken. -/
def decode (inFlight : Bool) : List Byte → Except DecodeError Instr
  | [] => .error .empty
  | b :: payload =>
    if b.toNat < 16 then decodeOp inFlight (b.setWidth 4) payload else .error (.badOpByte b)

/-- The byte that carries an operation code (30_encoding.md R78). -/
def opByte (op : Op4) : Byte := op.setWidth 8

/-- The request bytes of an instruction (30_encoding.md R71, R74, R78). The three autonomous steps have no encoding (R70
`STEP`). -/
def encode : Instr → Option (List Byte)
  | .startCapture => some [opByte 0x1#4]
  | .waitCapture => some [opByte 0x2#4]
  | .decode => some [opByte 0x3#4]
  | .linkInit => some [opByte 0x8#4]
  | .cmdBadLen payload => some (opByte 0x9#4 :: payload)
  | .cmdBadOp byte0 byte1 => some [opByte 0x9#4, byte0, byte1]
  | .grantZero => some [opByte 0x9#4, Config.opGrant, 0#8]
  | .grantCredit n => some [opByte 0x9#4, Config.opGrant, n]
  | .chunkAck => some [opByte 0xA#4]
  | .chunkAckStray => some [opByte 0xA#4]
  | .seqPush _ => none
  | .ceCopy => none
  | .beginSend => none
  | .reserved op => some [opByte op]

/-- `CYCLE`, the one pseudo-operation: the codes of START, WAIT, DECODE, as FG issues them (30_encoding.md R79). -/
def cycleCodes : List Op4 := [0x1#4, 0x2#4, 0x3#4]

/-- The request whose bits the opcode table numbers as `w`. Up to 8 bits it is an `OP4` code alone; 16 bits are the packet
`P` = (byte0, byte1) of a CMD_RX, byte0 being `P[15:8]` (30_encoding.md R70). Other widths are no row of the table. -/
def requestOfTableWord (nbits w : Nat) : List Byte :=
  if nbits ≤ 8 then [BitVec.ofNat 8 w]
  else if nbits ≤ 16 then [opByte 0x9#4, BitVec.ofNat 8 (w / 256), BitVec.ofNat 8 w]
  else []

/-- The instruction the decoder reads from a word of spec/opcode_table.json. A table word carries no state: code 0xA is
answered with the row that 30_encoding.md R71 names for it, CHUNK_ACK (95_test_vectors.md ENC6; log entry 14). -/
def decodeTableWord (nbits w : Nat) : Option Instr :=
  match decode true (requestOfTableWord nbits w) with
  | .ok i => some i
  | .error _ => none

end Sys2Proof
end

