-- ==== Sys2Proof/Machine/State.lean ====
section
/-! DEFINITION. Everything the spec gives the machine, as plain data (10_state.md R20 to R38), the model's own bookkeeping of
the agents outside the block, the reasons to stop, and the state after a reset (70_reset_and_hazards.md R190). -/

namespace Sys2Proof.Machine

/-- The index of a capture buffer, 0 or 1 (10_state.md R22). -/
inductive BufId where
  | b0
  | b1
deriving DecidableEq, Repr

/-- `1 - b` (10_state.md R22). -/
def BufId.other : BufId → BufId
  | .b0 => .b1
  | .b1 => .b0

/-- The index as a number. -/
def BufId.toNat : BufId → Nat
  | .b0 => 0
  | .b1 => 1

/-- A storage space as its written elements: (index, value) pairs, indices strictly rising. An index that is not listed
has not been written since the reset (20_memory.md R50, R59: elements are named by index, there are no addresses). -/
abbrev Memory (w : Nat) := List (Nat × BitVec w)

/-- The canonical form: indices strictly rising, so equal memories are equal lists. -/
abbrev Memory.wf {w : Nat} (m : Memory w) : Prop := m.Pairwise (fun a b => a.1 < b.1)

/-- A data-channel transfer begun and not yet completed, `(slot, bytes, taint)` (10_state.md R34). -/
structure Transfer where
  /-- The ring slot read. -/
  slot : Nat
  /-- The payload handed to the transport, 1 to 64 bytes. -/
  bytes : List Byte
  /-- Set when the §9 race has touched the transfer (model-only bit of the spec). -/
  taint : Bool
deriving DecidableEq, Repr

/-- What the block emits to the sequencer and the link transport (30_encoding.md R77). -/
inductive Output where
  /-- `ARM_CMD(n)`: a request to receive exactly n bytes on the command channel. -/
  | armCmd (n : Nat)
  /-- `BEGIN_TRANSFER(DATA, bytes)`. -/
  | beginTransfer (bytes : List Byte)
  /-- `SEQ_CLEAR`. -/
  | seqClear
  /-- `SEQ_RESTART`. -/
  | seqRestart
  /-- `SEQ_ENABLE`. -/
  | seqEnable
  /-- `SEQ_DISABLE`. -/
  | seqDisable
deriving DecidableEq, Repr

/-- The reasons the machine stops with a fault: none. "No operation of the block has a fault outcome"
(60_exceptions.md R172, R170). -/
inductive Fault
deriving DecidableEq, Repr

/-- The reasons a step has no meaning. "A refusal is not a behaviour of the block. It marks the run as outside the model"
(60_exceptions.md R172). Each is safe: the model stops. -/
inductive Refusal where
  /-- Raised by an arm of `exec` whose instruction has no meaning yet; no arm does. Safe. -/
  | notModelled (mnemonic : String)
  /-- Raised by `exec` on a reserved operation code (30_encoding.md R72). Safe. -/
  | reservedOp (op : Op4)
  /-- Raised by the FG operations before the external hardware setup (70_reset_and_hazards.md R196). Safe. -/
  | beforeSetup
  /-- Raised by `step` under a parameter set that breaks 00_scope.md R8 (R9). Safe. -/
  | badParameters
  /-- Raised by `step` on request bytes that spell no request (log entry 15). Safe. -/
  | badRequest (e : DecodeError)
  /-- Raised by `step` when FG issues a link event, LINK delivers a foreground operation, or request bytes are to spell
  one (00_scope.md R13; log entry 18). Safe. -/
  | wrongAgent
deriving DecidableEq, Repr

/-- The state of the block (10_state.md), of the agents around it, and of the model's own bookkeeping. -/
structure State where
  /-- The implementation parameters (00_scope.md R8). No operation changes them. -/
  cfg : Config.Params
  /-- `front`, the buffer in the front role (R22). -/
  front : BufId
  /-- `BUF[0]` (R23). -/
  buf0 : Memory 32
  /-- `BUF[1]` (R23). -/
  buf1 : Memory 32
  /-- `ce_dst`, the buffer CE writes (R24). -/
  ceDst : BufId
  /-- `ce_idx`, the words written in the current transfer (R24). -/
  ceIdx : Nat
  /-- `ce_busy` (R24). -/
  ceBusy : Bool
  /-- `cap_started` (R25). -/
  capStarted : Bool
  /-- `RING`, element `RING[s][e]` at index s × (`SPB` × `CH`) + e (R26). -/
  ring : Memory 16
  /-- `cursor`, the write cursor (R27). -/
  cursor : Nat
  /-- `valid` (R28). -/
  valid : Bool
  /-- `pub_count`, publishes since reset (R29). -/
  pubCount : Nat
  /-- `credit`, 8 bits (R30). -/
  credit : BitVec 8
  /-- `in_flight` (R30). -/
  inFlight : Bool
  /-- `blk`, the slot of the block being sent (R30). -/
  blk : Nat
  /-- `offset`, bytes of the block already acknowledged (R30). -/
  offset : Nat
  /-- `last_sent`, an identity or `NONE` (R30). -/
  lastSent : Option Nat
  /-- `cmd_armed` (R31). -/
  cmdArmed : Bool
  /-- `tainted` (R32). -/
  tainted : Bool
  /-- `seq_en`, the sequencer is enabled (R33). -/
  seqEn : Bool
  /-- `seq_pc`, the opaque position of the sequencer's program (R33). -/
  seqPc : Nat
  /-- `rxq`, the receive queue, head first (R33). -/
  rxq : List Word
  /-- `xfer_q`, pending data transfers, oldest first (R34). -/
  xferQ : List Transfer
  /-- Whether the external hardware setup has taken place (R193, R196). -/
  setupDone : Bool
  /-- Every output so far, oldest first (30_encoding.md R77). The model's own record. -/
  outputs : List Output
  /-- The chunks the host has received, oldest first (42_streaming.md R154). The model's own record. -/
  hostRx : List (List Byte)
  /-- The part of the FG agent's own program that has finished, first operation first (R21, 00_scope.md R13). DESIGN CHOICE:
  what is known of the program is a finite list, which `Move.fgExtend` lengthens without bound (log entry 2). -/
  fgDone : List Op4
  /-- The rest of what is known of that program; its head is the operation FG issues next or waits in. -/
  fgNext : List Op4
  /-- How many LINK_INITs are pending, the host's choice (60_exceptions.md R173). -/
  initPending : Nat
  /-- The payload of the completed receive whose CMD_RX is pending, at most one (60_exceptions.md R173). LINK_INIT leaves
  it standing (log entry 21). -/
  cmdPending : Option (List Byte)
  /-- The rest of the interleaving: who moves next (20_memory.md R63). -/
  moves : List Move
  /-- How many draws have been taken. The model's own counter (00_scope.md R11 `draw`). -/
  draws : Nat
  /-- How many device resets have been taken after the first; it selects the reset draws. The model's own counter. -/
  epoch : Nat
deriving DecidableEq, Repr

/-- The state after reset e under the parameters p (70_reset_and_hazards.md R190). Unwritten elements are the reset draws
(log entries 7, 8). -/
def State.resetWith (p : Config.Params) (e : Nat) : State where
  cfg := p
  front := .b0
  buf0 := []
  buf1 := []
  ceDst := .b0
  ceIdx := 0
  ceBusy := false
  capStarted := false
  ring := []
  cursor := 0
  valid := false
  pubCount := 0
  credit := 0#8
  inFlight := false
  blk := 0
  offset := 0
  lastSent := none
  cmdArmed := false
  tainted := false
  seqEn := false
  seqPc := Config.seqPcAtReset e
  rxq := []
  xferQ := []
  setupDone := true
  outputs := []
  hostRx := []
  fgDone := []
  fgNext := []
  initPending := 0
  cmdPending := none
  moves := []
  draws := 0
  epoch := e

/-- The machine right after its first reset, under the default parameters (00_scope.md R8, 70_reset_and_hazards.md R190). -/
def State.reset : State := State.resetWith Config.Params.default 0

end Sys2Proof.Machine
end

