-- ==== Sys2Proof/Machine/Operands.lean ====
section
/-! DEFINITION. Reading and writing the storage spaces, and the operand forms built on them: the fields of a raw word, the
entries of a decoded block, the bytes of a block and of a chunk. -/

namespace Sys2Proof.Machine

/-- The value written at an index since the reset, if any. -/
def Memory.read {w : Nat} : Memory w → Nat → Option (BitVec w)
  | [], _ => none
  | (k, v) :: m, i => if i = k then some v else Memory.read m i

/-- Writing one element, keeping the canonical form (20_memory.md R56: every access is a whole element). -/
def Memory.write {w : Nat} : Memory w → Nat → BitVec w → Memory w
  | [], i, x => [(i, x)]
  | (k, v) :: m, i, x =>
    if i < k then (i, x) :: (k, v) :: m
    else if i = k then (i, x) :: m
    else (k, v) :: Memory.write m i x

/-- Writing consecutive elements from index i on. -/
def Memory.writeFrom {w : Nat} (m : Memory w) (i : Nat) : List (BitVec w) → Memory w
  | [] => m
  | x :: xs => Memory.writeFrom (Memory.write m i x) (i + 1) xs

/-- The written elements of `BUF[b]`. -/
def State.buf (s : State) : BufId → Memory 32
  | .b0 => s.buf0
  | .b1 => s.buf1

/-- Replacing the written elements of `BUF[b]`. -/
def State.setBuf (s : State) (b : BufId) (m : Memory 32) : State :=
  match b with
  | .b0 => { s with buf0 := m }
  | .b1 => { s with buf1 := m }

/-- `BUF[b][j]`: the latest write, or the reset draw if there is none (20_memory.md R63, 10_state.md R23). -/
def State.bufWord (s : State) (b : BufId) (j : Nat) : Word :=
  (Memory.read (s.buf b) j).getD (Config.bufAtReset s.epoch b.toNat j)

/-- `BUF[b][j] <- w`. -/
def State.writeBuf (s : State) (b : BufId) (j : Nat) (w : Word) : State :=
  s.setBuf b (Memory.write (s.buf b) j w)

/-- Where `RING[slot][e]` stands in the ring space. -/
def ringIndex (p : Config.Params) (slot e : Nat) : Nat := slot * p.slotLen + e

/-- `RING[slot][e]`: the latest write, or the reset draw if there is none (10_state.md R26). -/
def State.ringEntry (s : State) (slot e : Nat) : Entry :=
  (Memory.read s.ring (ringIndex s.cfg slot e)).getD (Config.ringAtReset s.epoch slot e)

/-- Writing the entries of a ring slot, entry 0 first. -/
def State.writeSlot (s : State) (slot : Nat) (entries : List Entry) : State :=
  { s with ring := Memory.writeFrom s.ring (ringIndex s.cfg slot 0) entries }

/-- Field k of a raw word: shift right by 10 k times, then mask with 0x3FF (41_decoder.md R121). -/
def field (w : Word) (k : Nat) : Sample := ((w >>> (k * Config.fw)) &&& Config.fieldMask).setWidth 10

/-- `unpack(w)` = [f0, f1, f2] (41_decoder.md R121). -/
def unpack (w : Word) : List Sample := (List.range Config.fields).map (field w)

/-- The `zext_16` of the fields of a word, in extraction order (41_decoder.md R122). -/
def unpackEntries (w : Word) : List Entry := (unpack w).map (fun f => f.setWidth 16)

/-- The entries of sample i: word 2i+1 fills offsets 0 to 2, word 2i fills offsets 3 to 5 (41_decoder.md R122). -/
def sampleEntries (front : Nat → Word) (i : Nat) : List Entry :=
  unpackEntries (front (2 * i + 1)) ++ unpackEntries (front (2 * i))

/-- The entries of a decoded block, sample 0 first: entry i × `CH` + c is sample i at offset c (20_memory.md R52). -/
def blockEntries (spb : Nat) (front : Nat → Word) : List Entry :=
  (List.range spb).flatMap (sampleEntries front)

/-- Byte k of the block in a slot: little-endian per entry (20_memory.md R53). -/
def State.blockByte (s : State) (slot k : Nat) : Byte :=
  if k % 2 = 0 then (s.ringEntry slot (k / 2)).extractLsb' 0 8 else (s.ringEntry slot (k / 2)).extractLsb' 8 8

/-- The length of the chunk at a byte offset, `min(CHUNK, BB - offset)` (42_streaming.md R153). -/
def chunkLen (p : Config.Params) (offset : Nat) : Nat := min Config.chunk (p.blockBytes - offset)

/-- The bytes of the chunk of a slot's block at a byte offset (42_streaming.md R153). -/
def State.chunkBytes (s : State) (slot offset : Nat) : List Byte :=
  (List.range (chunkLen s.cfg offset)).map (fun k => s.blockByte slot (offset + k))

/-- `draw Bytes(n)`: the d-th draw as n bytes (42_streaming.md R153, R154). -/
def drawBytes (d n : Nat) : List Byte := (List.range n).map (Config.freeByte d)

end Sys2Proof.Machine
end

