-- ==== Sys2Proof/Machine/Flags.lean ====
section
/-! DEFINITION. The state the spec derives from its flags (10_state.md R36, R37) and the guards of the operations
(00_scope.md R12). The block has no condition codes (10_state.md R35). -/

namespace Sys2Proof.Machine

/-- The named states of the streaming state machine (10_state.md R36). -/
inductive SsmState where
  | idle
  | armed
  | sending
deriving DecidableEq, Repr

/-- `ssm_state`, derived from `in_flight` and `credit` (10_state.md R36). -/
def State.ssmState (s : State) : SsmState :=
  if s.inFlight then .sending else if s.credit = 0#8 then .idle else .armed

/-- The identity of the current block, `cur_id`; `none` is `NONE` (10_state.md R37). -/
def State.curId (s : State) : Option Nat :=
  if s.valid then
    match s.cfg.idMode with
    | .slot => some s.cursor
    | .seq => some s.pubCount
  else none

/-- WAIT_CAPTURE's guard: the configured transfer is complete, a level (40_capture.md R104, R106). -/
def State.captureDone (s : State) : Bool := s.capStarted && !s.ceBusy

/-- SEQ_PUSH's guard (40_capture.md R107). -/
def State.seqReady (s : State) : Bool := s.seqEn && decide (s.rxq.length < s.cfg.fifoDepth)

/-- CE_COPY's guard: data-ready while a transfer is configured (40_capture.md R109, R110). -/
def State.ceReady (s : State) : Bool := s.ceBusy && !s.rxq.isEmpty

/-- BEGIN_SEND's guard (42_streaming.md R152). -/
def State.sendReady (s : State) : Bool :=
  !s.inFlight && s.credit != 0#8 && s.curId.isSome && s.curId != s.lastSent

/-- CHUNK_ACK's guard: a begun transfer is not yet completed (42_streaming.md R155). -/
def State.ackReady (s : State) : Bool := !s.xferQ.isEmpty

/-- The guard of an operation: where it is false the operation is stuck, it has no step (00_scope.md R12). -/
def enabled : Instr → State → Bool
  | .startCapture, _ => true
  | .waitCapture, s => s.captureDone
  | .decode, _ => true
  | .linkInit, _ => true
  | .cmdBadLen _, s => s.cmdArmed
  | .cmdBadOp _ _, s => s.cmdArmed
  | .grantZero, s => s.cmdArmed
  | .grantCredit _, s => s.cmdArmed
  | .chunkAck, s => s.ackReady
  | .chunkAckStray, s => s.ackReady && !s.inFlight
  | .seqPush _, s => s.seqReady
  | .ceCopy, s => s.ceReady
  | .beginSend, s => s.sendReady
  | .reserved _, _ => true

end Sys2Proof.Machine
end

