-- ==== Sys2Proof/Machine/Ops.lean ====
section
/-! DEFINITION. The operations the meanings share: the guarded forms, the outputs, the chunk primitive, the completion of a
transfer, the race's marks, the re-arming of the command channel, the device reset. The block raises no exception and has
no trap entry and no trap return (60_exceptions.md R170, R175, R176), so none stands here. -/

namespace Sys2Proof.Machine

/-- The outcomes of this machine. -/
abbrev Result := Host.Outcome State Fault Refusal

/-- An operation under its guard. With a false guard it is stuck: it has no step and the state does not change
(00_scope.md R12); `step` keeps its request pending. -/
def guarded (g : Bool) (act : State → State) (s : State) : Result :=
  .next (if g then act s else s)

/-- A foreground operation under its guard; before the external hardware setup it is refused
(70_reset_and_hazards.md R196). -/
def foreground (g : Bool) (act : State → State) (s : State) : Result :=
  if s.setupDone then guarded g act s else .refused .beforeSetup

/-- `emit` (00_scope.md R11, 30_encoding.md R77). -/
def State.emit (s : State) (os : List Output) : State := { s with outputs := s.outputs ++ os }

/-- `rearm()` (42_streaming.md R147). -/
def rearm (s : State) : State := State.emit { s with cmdArmed := true } [.armCmd Config.cmdLen]

/-- CMD_RX around the effect of the row its payload selected (42_streaming.md R142). -/
def cmdRx (row : State → State) (s : State) : Result :=
  guarded s.cmdArmed (fun s => rearm (row { s with cmdArmed := false })) s

/-- `send_chunk()`: the chunk at `offset` of the in-flight block, or drawn bytes while `tainted` = 1 (42_streaming.md
R153). -/
def sendChunk (s : State) : State :=
  let bytes := if s.tainted then drawBytes s.draws (chunkLen s.cfg s.offset) else s.chunkBytes s.blk s.offset
  State.emit
    { s with
      xferQ := s.xferQ ++ [{ slot := s.blk, bytes := bytes, taint := s.tainted }]
      draws := if s.tainted then s.draws + 1 else s.draws }
    [.beginTransfer bytes]

/-- The bytes of a completed transfer as the host receives them: its own, or a draw if it is tainted (42_streaming.md
R154). -/
def deliveredBytes (d : Nat) (x : Transfer) : List Byte :=
  if x.taint then drawBytes d x.bytes.length else x.bytes

/-- The completion of the oldest pending transfer: it leaves `xfer_q` and the host receives its bytes (42_streaming.md
R155, R156). -/
def completeTransfer (s : State) : State :=
  match s.xferQ with
  | [] => s
  | x :: rest =>
    { s with
      xferQ := rest
      hostRx := s.hostRx ++ [deliveredBytes s.draws x]
      draws := if x.taint then s.draws + 1 else s.draws }

/-- What an acknowledgement does to the block in flight: the offset advances, then the next chunk or the end of the block
(42_streaming.md R155). -/
def advanceSend (s : State) : State :=
  let s' := { s with offset := s.offset + chunkLen s.cfg s.offset }
  if s'.offset < s'.cfg.blockBytes then sendChunk s' else { s' with inFlight := false }

/-- `taint_check(t)`: the §9 race is recorded, not prevented (41_decoder.md R124). -/
def taintCheck (t : Nat) (s : State) : State :=
  { s with
    tainted := s.tainted || (s.inFlight && decide (s.blk = t))
    xferQ := s.xferQ.map (fun x => { x with taint := x.taint || decide (x.slot = t) }) }

/-- The slot the next DECODE fills, `(cursor + 1) mod RING_N` (41_decoder.md R122). -/
def State.targetSlot (s : State) : Nat := (s.cursor + 1) % s.cfg.ringN

/-- The publish of a filled slot (41_decoder.md R122). -/
def publish (t : Nat) (s : State) : State :=
  { s with cursor := t, valid := true, pubCount := s.pubCount + 1 }

/-- The device reset as a move of the environment (70_reset_and_hazards.md R190 to R192). The block's state is that of a
reset with fresh draws, and with the channel no longer armed no command is pending; the parameters, the hardware setup, the
host's pending LINK_INITs, the moves to come and the records stay, and FG begins its own program at its first operation (log
entry 6). -/
def deviceReset (s : State) : State :=
  { State.resetWith s.cfg (s.epoch + 1) with
    setupDone := s.setupDone
    outputs := s.outputs
    hostRx := s.hostRx
    fgNext := s.fgDone ++ s.fgNext
    initPending := s.initPending
    moves := s.moves
    draws := s.draws }

end Sys2Proof.Machine
end

