-- ==== Sys2Proof/Machine/Capture.lean ====
section
/-! DEFINITION. The capture family: START_CAPTURE, WAIT_CAPTURE, SEQ_PUSH, CE_COPY (40_capture.md R101 to R111). -/

namespace Sys2Proof.Machine

/-- The effect of START_CAPTURE: the roles swap, the copy engine and the sequencer start afresh (40_capture.md R101, also
while a transfer is incomplete, R102). -/
def startCapture (s : State) : State :=
  State.emit
    { s with
      front := s.front.other
      ceDst := s.front
      ceIdx := 0
      ceBusy := true
      capStarted := true
      rxq := []
      seqPc := Config.seqProgramStart
      seqEn := true }
    [.seqClear, .seqRestart, .seqEnable]

/-- START_CAPTURE: no guard, "Precondition: none" (40_capture.md R101). -/
def execStartCapture (s : State) : Result := foreground true startCapture s

/-- WAIT_CAPTURE: stuck until the transfer is complete, then the sequencer is disabled (40_capture.md R104 to R106). -/
def execWaitCapture (s : State) : Result :=
  foreground s.captureDone (fun s => State.emit { s with seqEn := false } [.seqDisable]) s

/-- SEQ_PUSH of the drawn word w; the program position after it is a draw (40_capture.md R107). -/
def execSeqPush (w : Word) (s : State) : Result :=
  guarded s.seqReady
    (fun s => { s with rxq := s.rxq ++ [w], seqPc := Config.freeSeqPc s.draws, draws := s.draws + 1 }) s

/-- One word from the head of the receive queue into the transfer's buffer (40_capture.md R109). -/
def copyWord (s : State) : State :=
  match s.rxq with
  | [] => s
  | w :: rest =>
    State.writeBuf
      { s with
        rxq := rest
        ceIdx := s.ceIdx + 1
        ceBusy := if s.ceIdx + 1 = s.cfg.bufLen then false else s.ceBusy }
      s.ceDst s.ceIdx w

/-- CE_COPY (40_capture.md R109). -/
def execCeCopy (s : State) : Result := guarded s.ceReady copyWord s

end Sys2Proof.Machine
end

