-- ==== Sys2Proof/Machine/Decoder.lean ====
section
/-! DEFINITION. The decoder family: DECODE (41_decoder.md R121 to R127). -/

namespace Sys2Proof.Machine

/-- The effect of DECODE: mark the race, fill the target slot from the front buffer, then publish it (41_decoder.md R122,
R124). -/
def decodeBlock (s : State) : State :=
  let t := s.targetSlot
  publish t ((taintCheck t s).writeSlot t (blockEntries s.cfg.spb (s.bufWord s.front)))

/-- DECODE: "this stage is a pure, total transformation" (41_decoder.md R122). -/
def execDecode (s : State) : Result := foreground true decodeBlock s

end Sys2Proof.Machine
end

