-- ==== Sys2Proof/Machine/Port.lean ====
section
/-! DEFINITION. The reserved codes of the operation port (30_encoding.md R72). -/

namespace Sys2Proof.Machine

/-- A reserved code: "A model refuses them: it gives them no meaning and marks the run refused" (30_encoding.md R72). -/
def execReserved (op : Op4) (_s : State) : Result := .refused (.reservedOp op)

end Sys2Proof.Machine
end

