-- ==== Sys2Proof/Machine/Streaming.lean ====
section
/-! DEFINITION. The streaming family: LINK_INIT, the four rows of CMD_RX, BEGIN_SEND, CHUNK_ACK in its two rows
(42_streaming.md R141 to R163). -/

namespace Sys2Proof.Machine

/-- The effect of LINK_INIT: a fresh session, no pending transfer, the command channel armed (42_streaming.md R141). -/
def linkInit (s : State) : State :=
  State.emit
    { s with
      credit := 0#8
      inFlight := false
      offset := 0
      lastSent := none
      tainted := false
      xferQ := []
      cmdArmed := true }
    [.armCmd Config.cmdLen]

/-- LINK_INIT "may come at any time" (42_streaming.md R141). -/
def execLinkInit (s : State) : Result := guarded true linkInit s

/-- CMD_BADLEN: the packet is ignored (42_streaming.md R143). -/
def execCmdBadLen (_payload : List Byte) (s : State) : Result := cmdRx (fun s => s) s

/-- CMD_BADOP: the packet is ignored (42_streaming.md R144). -/
def execCmdBadOp (_byte0 _byte1 : Byte) (s : State) : Result := cmdRx (fun s => s) s

/-- GRANT_ZERO: "N = 0 is ignored" (42_streaming.md R145). -/
def execGrantZero (s : State) : Result := cmdRx (fun s => s) s

/-- The effect of a grant: the credit is replaced, a send in flight is abandoned (42_streaming.md R146). -/
def grant (n : Byte) (s : State) : State :=
  { s with credit := n, inFlight := false, offset := 0, tainted := false }

/-- GRANT_CREDIT (42_streaming.md R146). -/
def execGrantCredit (n : Byte) (s : State) : Result := cmdRx (grant n) s

/-- The effect of BEGIN_SEND: the current block becomes the one in flight and its first chunk is issued (42_streaming.md
R152). -/
def beginSend (s : State) : State :=
  sendChunk { s with
    inFlight := true
    credit := s.credit - 1#8
    lastSent := s.curId
    blk := s.cursor
    offset := 0
    tainted := false }

/-- BEGIN_SEND (42_streaming.md R152). -/
def execBeginSend (s : State) : Result := guarded s.sendReady beginSend s

/-- CHUNK_ACK: the oldest transfer completes; while a block is in flight it is that block's acknowledgement, else the
session does not change (42_streaming.md R155, whose last branch is R156). -/
def execChunkAck (s : State) : Result :=
  guarded s.ackReady
    (fun s => if s.inFlight then advanceSend (completeTransfer s) else completeTransfer s) s

/-- CHUNK_ACK_STRAY: the oldest transfer completes and the session does not change (42_streaming.md R156). -/
def execChunkAckStray (s : State) : Result :=
  guarded (s.ackReady && !s.inFlight) completeTransfer s

end Sys2Proof.Machine
end

