-- ==== Sys2Proof/Machine/Dispatch.lean ====
section
/-! DEFINITION. The meaning of every instruction, one arm a constructor. -/

namespace Sys2Proof.Machine

def exec (i : Instr) (s : State) : Host.Outcome State Fault Refusal :=
  match i with
  | .startCapture => Sys2Proof.Machine.execStartCapture s
  | .waitCapture => Sys2Proof.Machine.execWaitCapture s
  | .decode => Sys2Proof.Machine.execDecode s
  | .linkInit => Sys2Proof.Machine.execLinkInit s
  | .cmdBadLen payload => Sys2Proof.Machine.execCmdBadLen payload s
  | .cmdBadOp byte0 byte1 => Sys2Proof.Machine.execCmdBadOp byte0 byte1 s
  | .grantZero => Sys2Proof.Machine.execGrantZero s
  | .grantCredit n => Sys2Proof.Machine.execGrantCredit n s
  | .chunkAck => Sys2Proof.Machine.execChunkAck s
  | .chunkAckStray => Sys2Proof.Machine.execChunkAckStray s
  | .seqPush w => Sys2Proof.Machine.execSeqPush w s
  | .ceCopy => Sys2Proof.Machine.execCeCopy s
  | .beginSend => Sys2Proof.Machine.execBeginSend s
  | .reserved op => Sys2Proof.Machine.execReserved op s

end Sys2Proof.Machine
end

