-- ==== Sys2Proof/Machine/Schedule.lean ====
section
/-! DEFINITION. Who moves next and with which operation: the interleaving of the agents (00_scope.md R12, R13; 20_memory.md
R63; 60_exceptions.md R174), the requests of the operation port, and how a pending request stays or goes. -/

namespace Sys2Proof.Machine

/-- The agent an operation belongs to (00_scope.md R13, 30_encoding.md R71). A reserved code belongs to whoever sends it:
`none`. -/
def agentOf : Instr → Option Agent
  | .startCapture => some .fg
  | .waitCapture => some .fg
  | .decode => some .fg
  | .linkInit => some .link
  | .cmdBadLen _ => some .link
  | .cmdBadOp _ _ => some .link
  | .grantZero => some .link
  | .grantCredit _ => some .link
  | .chunkAck => some .link
  | .chunkAckStray => some .link
  | .seqPush _ => some .seq
  | .ceCopy => some .ce
  | .beginSend => some .link
  | .reserved _ => none

/-- The next move: the head of the interleaving the state lists, or a free value where it lists none (60_exceptions.md R174;
log entry 1). -/
def State.nextMove (s : State) : Move :=
  match s.moves with
  | m :: _ => m
  | [] => Config.freeMove s.draws

/-- The moves no agent of the block makes: what reaches the port beside the events, FG's program going on, the host, the setup, the
reset. -/
def ofEnvironment : Move → Bool
  | .fg => false
  | .linkInit => false
  | .cmdRx => false
  | .chunkAck => false
  | .seqPush _ => false
  | .ceCopy => false
  | .beginSend => false
  | .request _ => true
  | .fgExtend _ => true
  | .hostLinkUp => true
  | .hostCommand _ => true
  | .hwSetup => true
  | .deviceReset => true

/-- The state once its next move has been taken off the interleaving. -/
def State.takeMove (s : State) : State :=
  match s.moves with
  | _ :: ms => { s with moves := ms }
  | [] => { s with draws := s.draws + 1 }

/-- What a move brings. -/
inductive Fetched where
  /-- The agent has nothing to issue. -/
  | nothing
  /-- The environment's own move, no operation of the block. -/
  | environment
  /-- An operation. -/
  | operation (i : Instr)
  /-- No operation, and the run is outside the model. -/
  | refusal (r : Refusal)
deriving DecidableEq, Repr

/-- The request bytes of agent a, read (30_encoding.md R71, R74); an operation of another agent is no request of a's
(00_scope.md R13). -/
def fetchRequest (a : Agent) (inFlight : Bool) (bytes : List Byte) : Fetched :=
  match decode inFlight bytes with
  | .error e => .refusal (.badRequest e)
  | .ok i => if agentOf i = some a ∨ agentOf i = none then .operation i else .refusal .wrongAgent

/-- Bytes at the port that are no event of 60_exceptions.md R173. A reserved code is an operation of no agent's, which `exec`
refuses (30_encoding.md R72); all else is refused here: the foreground operations come from FG's program and the link events
from their pending places (log entry 15). -/
def fetchPort (inFlight : Bool) (bytes : List Byte) : Fetched :=
  match decode inFlight bytes with
  | .error e => .refusal (.badRequest e)
  | .ok i => if agentOf i = none then .operation i else .refusal .wrongAgent

/-- What a move brings in a state. -/
def fetch (m : Move) (s : State) : Fetched :=
  match m with
  | .fg =>
    match s.fgNext with
    | op :: _ => fetchRequest .fg s.inFlight [opByte op]
    | [] => .nothing
  | .linkInit => if s.initPending = 0 then .nothing else fetchRequest .link s.inFlight [opByte 0x8#4]
  | .cmdRx =>
    match s.cmdPending with
    | some payload => fetchRequest .link s.inFlight (opByte 0x9#4 :: payload)
    | none => .nothing
  | .chunkAck => fetchRequest .link s.inFlight [opByte 0xA#4]
  | .seqPush w => .operation (.seqPush w)
  | .ceCopy => .operation .ceCopy
  | .beginSend => .operation .beginSend
  | .request bytes => fetchPort s.inFlight bytes
  | .fgExtend _ => .environment
  | .hostLinkUp => .environment
  | .hostCommand _ => .environment
  | .hwSetup => .environment
  | .deviceReset => .environment

/-- The event of a move is consumed (60_exceptions.md R173): FG goes on to its next operation, a LINK_INIT or the command is no
longer pending. A completion is consumed by its own step, which takes the entry off `xfer_q`. -/
def retire (m : Move) (s : State) : State :=
  match m with
  | .fg => { s with fgDone := s.fgDone ++ s.fgNext.take 1, fgNext := s.fgNext.drop 1 }
  | .linkInit => { s with initPending := s.initPending - 1 }
  | .cmdRx => { s with cmdPending := none }
  | .chunkAck => s
  | .seqPush _ => s
  | .ceCopy => s
  | .beginSend => s
  | .request _ => s
  | .fgExtend _ => s
  | .hostLinkUp => s
  | .hostCommand _ => s
  | .hwSetup => s
  | .deviceReset => s

/-- An enabled operation's request is retired as it runs; a stuck one "stays pending until another agent's step makes the
guard true" (00_scope.md R12). -/
def issue (m : Move) (i : Instr) (s : State) : State := if enabled i s then retire m s else s

/-- The host may complete a receive with these bytes: the channel is armed and no completed receive of it is pending yet, "at
most one receive per ARM_CMD", with any `len` of 0 to 255 (42_streaming.md R162, 60_exceptions.md R173, 30_encoding.md R70). -/
def State.canReceive (s : State) (payload : List Byte) : Bool :=
  s.cmdArmed && s.cmdPending.isNone && decide (payload.length ≤ Config.maxPayload)

/-- The environment's own moves: FG's program goes on, the host's bring-up and command become pending (60_exceptions.md R173),
the hardware setup (70_reset_and_hazards.md R193), the device reset (R190, R191). A receive the host cannot complete is no move
at all (42_streaming.md R162). -/
def environmentMove (m : Move) (s : State) : State :=
  match m with
  | .fgExtend op => { s with fgNext := s.fgNext ++ [op] }
  | .hostLinkUp => { s with initPending := s.initPending + 1 }
  | .hostCommand payload => if s.canReceive payload then { s with cmdPending := some payload } else s
  | .hwSetup => { s with setupDone := true }
  | .deviceReset => deviceReset s
  | .fg => s
  | .linkInit => s
  | .cmdRx => s
  | .chunkAck => s
  | .seqPush _ => s
  | .ceCopy => s
  | .beginSend => s
  | .request _ => s

/-- One code placed as the operation FG issues next. -/
def State.withFgOp (s : State) (op : Op4) : State :=
  { s with fgNext := op :: s.fgNext, moves := .fg :: s.moves }

/-- One request placed as what LINK takes next: one of the three events of 60_exceptions.md R173, or any other bytes at the
port. -/
def State.withRequest (s : State) (bytes : List Byte) : State :=
  match bytes with
  | [] => { s with moves := .request [] :: s.moves }
  | b :: payload =>
    if b = opByte 0x8#4 ∧ payload = [] then { s with initPending := s.initPending + 1, moves := .linkInit :: s.moves }
    else if b = opByte 0x9#4 then { s with cmdPending := some payload, moves := .cmdRx :: s.moves }
    else if b = opByte 0xA#4 ∧ payload = [] then { s with moves := .chunkAck :: s.moves }
    else { s with moves := .request bytes :: s.moves }

/-- A table word placed so that the next step runs it: a code below 0x8 goes to FG, every other request to LINK
(30_encoding.md R71). -/
def State.withTableWord (s : State) (nbits w : Nat) : State :=
  if nbits ≤ 8 ∧ w < 8 then s.withFgOp (BitVec.ofNat 4 w) else s.withRequest (requestOfTableWord nbits w)

end Sys2Proof.Machine
end

