-- ==== Sys2Proof/Machine/Step.lean ====
section
/-! DEFINITION. One step of the machine: the next move of the interleaving (00_scope.md R11, R12; 20_memory.md R63). -/

namespace Sys2Proof.Machine

/-- One step. A parameter set that breaks 00_scope.md R8 is refused (R9, 60_exceptions.md R172). -/
def step (s : State) : Host.Outcome State Fault Refusal :=
  if s.cfg.ok then
    match fetch s.nextMove s.takeMove with
    | .nothing => .next s.takeMove
    | .environment => .next (environmentMove s.nextMove s.takeMove)
    | .operation i => exec i (issue s.nextMove i s.takeMove)
    | .refusal r => .refused r
  else .refused .badParameters

/-- `s` with the instruction of a table word placed as what the next step runs. -/
def State.withFetchWord (s : State) (nbits w : Nat) : State := s.withTableWord nbits w

end Sys2Proof.Machine
end

