-- ==== Sys2Proof/Safety.lean ====
section
/-! DEFINITION. The terms claims are stated in: the invariants of the reachable states, sequences of operations, infinite
fair runs, and the agreements of two states that one side of the block cannot tell apart. -/

namespace Sys2Proof.Machine

/-- The storage spaces are in canonical form and inside their ranges, and written ring entries hold 10-bit samples
(20_memory.md R50, 10_state.md R23, R26). -/
structure State.StorageInv (s : State) : Prop where
  buf_wf : ∀ b, (s.buf b).wf
  buf_range : ∀ b, ∀ c ∈ s.buf b, c.1 < s.cfg.bufLen
  ring_wf : s.ring.wf
  ring_range : ∀ c ∈ s.ring, c.1 < s.cfg.ringN * s.cfg.slotLen
  ring_sample : ∀ c ∈ s.ring, c.2.toNat < 1024
  write_range : s.ceBusy = true → s.ceIdx < s.cfg.bufLen

/-- The capture discipline: CE writes only the back buffer, the copy engine's fields agree, the queue respects its depth,
and nothing runs before the first START_CAPTURE (20_memory.md R61, 10_state.md R24, R25, R33). -/
structure State.CaptureInv (s : State) : Prop where
  back : s.capStarted = true → s.ceDst = s.front.other
  busy : s.ceBusy = true → s.capStarted = true ∧ s.ceIdx < s.cfg.bufLen
  done : s.capStarted = true → s.ceBusy = false → s.ceIdx = s.cfg.bufLen
  fifo : s.rxq.length ≤ s.cfg.fifoDepth
  unstarted : s.capStarted = false → s.seqEn = false ∧ s.rxq = [] ∧ s.ceIdx = 0

/-- The streaming session: the offset is a chunk boundary inside the block, a block in flight has a transfer pending and is
the one recorded as last sent, and before the first LINK_INIT there is no session (10_state.md R30, R31, R37; 42_streaming.md
R152, R153, R155). -/
structure State.SessionInv (s : State) : Prop where
  cursor_range : s.cursor < s.cfg.ringN
  blk_range : s.blk < s.cfg.ringN
  unpublished : s.valid = false → s.pubCount = 0 ∧ s.cursor = 0 ∧ s.lastSent = none
  published : s.valid = true → 1 ≤ s.pubCount
  sending : s.inFlight = true →
    s.offset < s.cfg.blockBytes ∧ s.offset % Config.chunk = 0 ∧ s.xferQ ≠ [] ∧ s.lastSent ≠ none
  offset_range : s.offset ≤ s.cfg.blockBytes
  slot_identity : s.cfg.idMode = .slot → ∀ n, s.lastSent = some n → n < s.cfg.ringN
  slot_in_flight : s.cfg.idMode = .slot → s.inFlight = true → s.lastSent = some s.blk
  seq_identity : s.cfg.idMode = .seq → ∀ n, s.lastSent = some n → 1 ≤ n ∧ n ≤ s.pubCount
  unarmed : s.cmdArmed = false →
    s.credit = 0#8 ∧ s.inFlight = false ∧ s.offset = 0 ∧ s.lastSent = none ∧ s.xferQ = []

/-- The command that is pending: only while the channel is armed, and of a length the transport reports; that it is at most one
is `cmdPending`'s type (60_exceptions.md R173, 42_streaming.md R162, 30_encoding.md R70). -/
structure State.PendingInv (s : State) : Prop where
  armed : s.cmdPending ≠ none → s.cmdArmed = true
  length : ∀ payload, s.cmdPending = some payload → payload.length ≤ Config.maxPayload

/-- The bytes of `x` are a whole chunk of the block that stands in its slot now (42_streaming.md R153, R154). -/
def State.HoldsChunk (s : State) (x : Transfer) (offset : Nat) : Prop :=
  offset % Config.chunk = 0 ∧ offset < s.cfg.blockBytes ∧ x.bytes = s.chunkBytes x.slot offset

/-- What is true of every pending transfer: its length, and, unless the §9 race has touched it, that its bytes are still the
slot's (42_streaming.md R153, R154). -/
structure State.TransferInv (s : State) : Prop where
  size : ∀ x ∈ s.xferQ, 1 ≤ x.bytes.length ∧ x.bytes.length ≤ Config.chunk
  data : ∀ x ∈ s.xferQ, x.taint = false → ∃ offset, s.HoldsChunk x offset

/-- While a block is in flight, the newest pending transfer is the chunk at `offset` of that block, tainted if the block is
(42_streaming.md R153, R155). -/
structure State.InTransitInv (s : State) : Prop where
  newest : s.inFlight = true → ∃ x, s.xferQ.getLast? = some x ∧ x.slot = s.blk ∧
    x.bytes.length = chunkLen s.cfg s.offset ∧ (s.tainted = true → x.taint = true) ∧
    (x.taint = false → x.bytes = s.chunkBytes s.blk s.offset)

/-- Operations one after the other, stopping at the first that gives no next state. -/
def execAll : List Instr → State → Host.Outcome State Fault Refusal
  | [], s => .next s
  | i :: is, s =>
    match exec i s with
    | .next t => execAll is t
    | .fault f => .fault f
    | .refused r => .refused r

/-- The word an operation pushes, if it is a push. -/
def pushedWord : Instr → Option Word
  | .seqPush w => some w
  | .startCapture => none
  | .waitCapture => none
  | .decode => none
  | .linkInit => none
  | .cmdBadLen _ => none
  | .cmdBadOp _ _ => none
  | .grantZero => none
  | .grantCredit _ => none
  | .chunkAck => none
  | .chunkAckStray => none
  | .ceCopy => none
  | .beginSend => none
  | .reserved _ => none

/-- Pushes and copies, in an order a queue of the given depth that holds `queued` words allows: no push finds it full, no copy
finds it empty (40_capture.md R107, R109). -/
def fitsQueue (depth : Nat) : Nat → List Instr → Prop
  | _, [] => True
  | queued, i :: is =>
    (∃ w, i = .seqPush w ∧ queued < depth ∧ fitsQueue depth (queued + 1) is) ∨
      (i = .ceCopy ∧ 0 < queued ∧ fitsQueue depth (queued - 1) is)

/-- An interleaving of SEQ and CE that produces the words `ws` and copies each of them within the queue's depth
(40_capture.md R110). -/
def IsCaptureSchedule (depth : Nat) (ws : List Word) (is : List Instr) : Prop :=
  fitsQueue depth 0 is ∧ is.filterMap pushedWord = ws ∧ is.count .ceCopy = ws.length

/-- The operation a step takes up, if it takes up one. -/
def State.stepOp (s : State) : Option Instr :=
  match fetch s.nextMove s.takeMove with
  | .operation i => some i
  | .nothing => none
  | .environment => none
  | .refusal _ => none

/-- An infinite run: each state is the one before after a step, with the rest of the interleaving chosen anew. So every infinite
interleaving of the agents and the environment is a run, whatever FG's program and the host go on to do (20_memory.md R63,
60_exceptions.md R174, 70_reset_and_hazards.md R195; DESIGN CHOICE, log entries 1, 2). -/
def IsRun (r : Nat → State) : Prop := ∀ n, ∃ t ms, step (r n) = .next t ∧ r (n + 1) = { t with moves := ms }

/-- Weak fairness for an autonomous step: if its guard holds continuously, it is eventually taken (92_eei_decisions.md D36;
40_capture.md R109, 42_streaming.md R152). -/
def WeaklyFair (i : Instr) (r : Nat → State) : Prop :=
  ∀ n, (∀ m, n ≤ m → enabled i (r m) = true) → ∃ m, n ≤ m ∧ (r m).stepOp = some i

/-- The step from `s` is the device reset (70_reset_and_hazards.md R190). -/
def State.resetsNext (s : State) : Prop := s.nextMove = .deviceReset

/-- A quiescent state: FG's program is exhausted or stuck in WAIT_CAPTURE, CE and BEGIN_SEND are not enabled, no transfer and no
event of the host is pending (70_reset_and_hazards.md R195). SEQ may still push. -/
def State.Quiescent (s : State) : Prop :=
  (s.fgNext = [] ∨ (s.fgNext.head? = some 0x2#4 ∧ s.setupDone = true ∧ s.captureDone = false)) ∧
  s.ceReady = false ∧ s.sendReady = false ∧ s.xferQ = [] ∧ s.initPending = 0 ∧ s.cmdPending = none

/-- `t` agrees with `s` on everything the LINK agent writes or reads (60_exceptions.md R180). -/
def State.SameLink (s t : State) : Prop :=
  t = { s with
    front := t.front, buf0 := t.buf0, buf1 := t.buf1, ceDst := t.ceDst, ceIdx := t.ceIdx, ceBusy := t.ceBusy,
    capStarted := t.capStarted, seqEn := t.seqEn, seqPc := t.seqPc, rxq := t.rxq, setupDone := t.setupDone }

/-- `t` agrees with `s` on the capture side and on the environment: on all but the ring, the session, the pending transfers,
and the records and draws of the link side (60_exceptions.md R180). -/
def State.SameCapture (s t : State) : Prop :=
  t = { s with
    ring := t.ring, cursor := t.cursor, valid := t.valid, pubCount := t.pubCount, credit := t.credit,
    inFlight := t.inFlight, blk := t.blk, offset := t.offset, lastSent := t.lastSent, cmdArmed := t.cmdArmed,
    tainted := t.tainted, xferQ := t.xferQ, outputs := t.outputs, hostRx := t.hostRx, draws := t.draws }

end Sys2Proof.Machine
end

