-- ==== Sys2Proof/Certificates/Slice0/Obligations.lean ====
section
/-! DEFINITION. The statements for the provers. Each docstring names the rule of spec/ it is about. -/

open Sys2Proof Sys2Proof.Machine

/-! ## Encodings -/

/-- 30_encoding.md R70, R71, R72, R74: decoding the encoding of a well-formed instruction gives it back, with every operand at
every value its row admits. Code 0xA stands for the row `in_flight` selects (42_streaming.md R155, R156). -/
def Obligations.DecodeGivesBackEncodedInstruction : Prop :=
  ∀ (f : Bool) (i : Instr) (bs : List Byte), i.wf = true → (i = .chunkAck → f = true) → (i = .chunkAckStray → f = false) →
    encode i = some bs → Sys2Proof.decode f bs = .ok i

/-- 30_encoding.md R71, R72, R74: whatever bytes decode, they are the encoding of the instruction they decode to, and that
instruction is well formed; so every request has one reading and every reading one request. The byte form of a request and its
rejections are the model's (log entry 15). -/
def Obligations.DecodedRequestIsItsOwnEncoding : Prop :=
  ∀ (f : Bool) (bs : List Byte) (i : Instr), Sys2Proof.decode f bs = .ok i →
    i.wf = true ∧ encode i = some bs ∧ (i = .chunkAck → f = true) ∧ (i = .chunkAckStray → f = false)

/-- 30_encoding.md R71 and 95_test_vectors.md ENC1 to ENC6, CMD1 to CMD10: requests written out byte by byte (byte form: log
entry 15). -/
def Obligations.WrittenOutRequestsDecode : Prop :=
  ∀ f : Bool,
    Sys2Proof.decode f [0x01#8] = .ok .startCapture ∧
    Sys2Proof.decode f [0x02#8] = .ok .waitCapture ∧
    Sys2Proof.decode f [0x03#8] = .ok .decode ∧
    Sys2Proof.decode f [0x08#8] = .ok .linkInit ∧
    Sys2Proof.decode f [0x09#8] = .ok (.cmdBadLen []) ∧
    Sys2Proof.decode f [0x09#8, 0x01#8] = .ok (.cmdBadLen [0x01#8]) ∧
    Sys2Proof.decode f [0x09#8, 0x01#8, 0x03#8, 0x00#8] = .ok (.cmdBadLen [0x01#8, 0x03#8, 0x00#8]) ∧
    Sys2Proof.decode f [0x09#8, 0x00#8, 0x05#8] = .ok (.cmdBadOp 0x00#8 0x05#8) ∧
    Sys2Proof.decode f [0x09#8, 0x02#8, 0x05#8] = .ok (.cmdBadOp 0x02#8 0x05#8) ∧
    Sys2Proof.decode f [0x09#8, 0xFF#8, 0x00#8] = .ok (.cmdBadOp 0xFF#8 0x00#8) ∧
    Sys2Proof.decode f [0x09#8, 0x01#8, 0x00#8] = .ok .grantZero ∧
    Sys2Proof.decode f [0x09#8, 0x01#8, 0x01#8] = .ok (.grantCredit 0x01#8) ∧
    Sys2Proof.decode f [0x09#8, 0x01#8, 0x03#8] = .ok (.grantCredit 0x03#8) ∧
    Sys2Proof.decode f [0x09#8, 0x01#8, 0xFF#8] = .ok (.grantCredit 0xFF#8) ∧
    Sys2Proof.decode true [0x0A#8] = .ok .chunkAck ∧
    Sys2Proof.decode false [0x0A#8] = .ok .chunkAckStray

/-- 30_encoding.md R74, R75: the conditions on a CMD_RX payload, tested in order; every payload of up to 255 bytes selects
exactly one row. -/
def Obligations.CommandPayloadSelectsRowInOrder : Prop :=
  ∀ (f : Bool) (payload : List Byte), payload.length ≤ 255 →
    (payload.length ≠ 2 → Sys2Proof.decode f (0x09#8 :: payload) = .ok (.cmdBadLen payload)) ∧
    (payload.length = 2 → ∃ byte0 byte1, payload = [byte0, byte1] ∧
      Sys2Proof.decode f (0x09#8 :: payload) =
        .ok (if byte0.toNat ≠ 1 then .cmdBadOp byte0 byte1 else if byte1.toNat = 0 then .grantZero else .grantCredit byte1))

/-- 30_encoding.md R72 (the spec's own decision, 92_eei_decisions.md D1): the codes 0x0, 0x4 to 0x7 and 0xB to 0xF decode to
the reserved row, and running it is refused, in every state. -/
def Obligations.ReservedCodesAreRefused : Prop :=
  ∀ (f : Bool) (op : Op4) (s : State),
    (op = 0x0#4 ∨ op = 0x4#4 ∨ op = 0x5#4 ∨ op = 0x6#4 ∨ op = 0x7#4 ∨ op = 0xB#4 ∨ op = 0xC#4 ∨ op = 0xD#4 ∨ op = 0xE#4 ∨
      op = 0xF#4) →
    Sys2Proof.decode f [opByte op] = .ok (.reserved op) ∧ exec (.reserved op) s = .refused (.reservedOp op)

/-! ## Steps -/

/-- 00_scope.md R12, R13: when FG moves, the step runs the operation its code decodes to. An enabled operation leaves FG's
program as it runs; a stuck one stays FG's next. How the model holds the program and the interleaving is its choice (log
entries 1, 3). -/
def Obligations.StepRunsForegroundOperation : Prop :=
  ∀ (s : State) (ms : List Move) (op : Op4) (rest : List Op4) (i : Instr), s.cfg.ok = true → s.moves = .fg :: ms →
    s.fgNext = op :: rest → Sys2Proof.decode s.inFlight [opByte op] = .ok i → agentOf i ≠ some .link →
    step s = exec i
      (if enabled i s then { s with moves := ms, fgDone := s.fgDone ++ [op], fgNext := rest } else { s with moves := ms })

/-- 60_exceptions.md R173, R174, 00_scope.md R12, R13: LINK takes a pending LINK_INIT, the pending command, or the
completion of the oldest transfer, whichever the interleaving names; the step runs the row it decodes to. An enabled event
is consumed, a stuck one stays pending, and with none pending nothing happens (log entries 1, 3, 14, 15). -/
def Obligations.StepRunsLinkEvent : Prop :=
  ∀ (s : State) (ms : List Move), s.cfg.ok = true →
    (∀ k, s.moves = .linkInit :: ms → s.initPending = k + 1 →
      step s = exec .linkInit { s with moves := ms, initPending := k }) ∧
    (s.moves = .linkInit :: ms → s.initPending = 0 → step s = .next { s with moves := ms }) ∧
    (∀ payload i, s.moves = .cmdRx :: ms → s.cmdPending = some payload →
      Sys2Proof.decode s.inFlight (0x09#8 :: payload) = .ok i →
      step s = exec i { s with moves := ms, cmdPending := if s.cmdArmed then none else some payload }) ∧
    (s.moves = .cmdRx :: ms → s.cmdPending = none → step s = .next { s with moves := ms }) ∧
    (s.moves = .chunkAck :: ms →
      step s = exec (if s.inFlight then .chunkAck else .chunkAckStray) { s with moves := ms }) ∧
    (s.moves = .chunkAck :: ms → s.xferQ = [] → step s = .next { s with moves := ms })

/-- 60_exceptions.md R173, 42_streaming.md R162, 70_reset_and_hazards.md R195: what the environment may add at any time. A
LINK_INIT at the host's choice; a command only while the channel is armed, no other is pending and its length is at most 255;
one more operation of FG's program. How the model holds them is its choice (log entry 2). -/
def Obligations.EnvironmentAddsEvents : Prop :=
  ∀ (s : State) (ms : List Move), s.cfg.ok = true →
    (s.moves = .hostLinkUp :: ms → step s = .next { s with moves := ms, initPending := s.initPending + 1 }) ∧
    (∀ payload, s.moves = .hostCommand payload :: ms →
      (s.cmdArmed = true → s.cmdPending = none → payload.length ≤ 255 →
        step s = .next { s with moves := ms, cmdPending := some payload }) ∧
      (s.cmdArmed = false ∨ s.cmdPending ≠ none ∨ 255 < payload.length → step s = .next { s with moves := ms })) ∧
    (∀ op, s.moves = .fgExtend op :: ms → step s = .next { s with moves := ms, fgNext := s.fgNext ++ [op] })

/-- 00_scope.md R12, R13: the autonomous steps carry no encoding; the step runs them as they stand (log entry 1). -/
def Obligations.StepRunsAutonomousStep : Prop :=
  ∀ (s : State) (ms : List Move), s.cfg.ok = true →
    (∀ w, s.moves = .seqPush w :: ms → step s = exec (.seqPush w) { s with moves := ms }) ∧
    (s.moves = .ceCopy :: ms → step s = exec .ceCopy { s with moves := ms }) ∧
    (s.moves = .beginSend :: ms → step s = exec .beginSend { s with moves := ms })

/-- The host's placement of a table word: the very next step runs the instruction the word decodes to, and nothing of the
placement is left behind but FG's record of it; a placed command takes the place of a pending one (log entries 2, 15). -/
def Obligations.PlacedTableWordRunsNext : Prop :=
  ∀ (s : State) (nbits w : Nat) (i : Instr), s.cfg.ok = true → w < 2 ^ nbits →
    Sys2Proof.decode s.inFlight (requestOfTableWord nbits w) = .ok i → enabled i s = true →
    step (s.withFetchWord nbits w) =
      if nbits ≤ 8 ∧ w < 8 then exec i { s with fgDone := s.fgDone ++ [BitVec.ofNat 4 w] }
      else if nbits ≤ 8 ∧ w ≠ 9 then exec i s
      else exec i { s with cmdPending := none }

/-- 00_scope.md R9, 60_exceptions.md R172: a parameter set that breaks a constraint of 00_scope.md R8 is refused, and no other
is refused for that reason. -/
def Obligations.BadParametersAreRefused : Prop :=
  ∀ s : State, (s.cfg.spb < 1 ∨ s.cfg.ringN < 2 ∨ s.cfg.fifoDepth < 1) ↔ step s = .refused .badParameters

/-- 70_reset_and_hazards.md R196 (92_eei_decisions.md D35), 60_exceptions.md R172: `exec` refuses a reserved code and a
foreground operation before the hardware setup, each by its own reason, and refuses or faults on nothing else. -/
def Obligations.OnlyReservedAndUnsetHardwareAreRefused : Prop :=
  ∀ (i : Instr) (s : State),
    (∃ op, i = .reserved op ∧ exec i s = .refused (.reservedOp op)) ∨
    (agentOf i = some .fg ∧ s.setupDone = false ∧ exec i s = .refused .beforeSetup) ∨
    (agentOf i ≠ none ∧ (agentOf i = some .fg → s.setupDone = true) ∧ ∃ t, exec i s = .next t)

/-- 10_state.md R25, R28, 00_scope.md R8 (the spec's own decisions D9, D14): no step changes the parameters, and only a
device reset clears `cap_started` or `valid`. -/
def Obligations.OnlyResetClearsStartedAndValid : Prop :=
  ∀ s t : State, step s = .next t →
    t.cfg = s.cfg ∧
    (s.capStarted = true → t.capStarted = true ∨ s.nextMove = .deviceReset) ∧
    (s.valid = true → t.valid = true ∨ s.nextMove = .deviceReset)

/-! ## Capture -/

/-- 40_capture.md R101, one atomic step by the spec's own decision D33: START_CAPTURE, in every state after the hardware
setup, also while a transfer is incomplete (R102). All of the next state is given: whatever the record does not name is as
it was. -/
def Obligations.StartCaptureSwapsRolesAndRestarts : Prop :=
  (∀ f, Sys2Proof.decode f [0x01#8] = .ok .startCapture) ∧
  ∀ s : State, s.setupDone = true →
    exec .startCapture s = .next { s with
      front := s.front.other
      ceDst := s.front
      ceIdx := 0
      ceBusy := true
      capStarted := true
      rxq := []
      seqPc := Config.seqProgramStart
      seqEn := true
      outputs := s.outputs ++ [.seqClear, .seqRestart, .seqEnable] }

/-- 40_capture.md R104: WAIT_CAPTURE disables the sequencer when the transfer is complete; otherwise it is stuck (00_scope.md
R12, the spec's own decision D18): nothing changes, and FG's next operation is still this one. That a stuck turn is a step that
changes nothing, and how the interleaving and FG's program are held, is the model's choice (log entries 1, 2, 3). -/
def Obligations.WaitCaptureEndsOnlyACompleteTransfer : Prop :=
  (∀ f, Sys2Proof.decode f [0x02#8] = .ok .waitCapture) ∧
  (∀ s : State, s.setupDone = true → s.capStarted = true → s.ceBusy = false →
    exec .waitCapture s = .next { s with seqEn := false, outputs := s.outputs ++ [.seqDisable] }) ∧
  (∀ s : State, s.setupDone = true → (s.capStarted = false ∨ s.ceBusy = true) →
    exec .waitCapture s = .next s ∧
    ∀ ms rest, s.cfg.ok = true → s.moves = .fg :: ms → s.fgNext = 0x2#4 :: rest → step s = .next { s with moves := ms })

/-- 40_capture.md R105 (92_eei_decisions.md D9, D10, D31): before any START_CAPTURE, no sequence of other operations lets
WAIT_CAPTURE return; each of its turns leaves the state as it was. -/
def Obligations.WaitBeforeAnyStartIsStuckForEver : Prop :=
  ∀ (is : List Instr) (s t : State), s.setupDone = true → s.capStarted = false → (∀ i ∈ is, i ≠ .startCapture) →
    execAll is s = .next t → t.capStarted = false ∧ exec .waitCapture t = .next t

/-- 40_capture.md R106 (92_eei_decisions.md D9): completion is a level; a second WAIT_CAPTURE returns at once and `seq_en`
stays 0. -/
def Obligations.SecondWaitReturnsAtOnce : Prop :=
  ∀ s : State, s.setupDone = true → s.capStarted = true → s.ceBusy = false → s.seqEn = false →
    exec .waitCapture s = .next { s with outputs := s.outputs ++ [.seqDisable] }

/-- 40_capture.md R107, with the spec's own decisions D6, D32: SEQ_PUSH appends the drawn word and leaves the program
position open (some value; log entry 8); with `seq_en` = 0 or a full queue it has no step. -/
def Obligations.SeqPushAppendsTheDrawnWord : Prop :=
  ∀ (s : State) (w : Word),
    (s.seqEn = true → s.rxq.length < s.cfg.fifoDepth →
      ∃ pc d, exec (.seqPush w) s = .next { s with rxq := s.rxq ++ [w], seqPc := pc, draws := d }) ∧
    (s.seqEn = false ∨ s.cfg.fifoDepth ≤ s.rxq.length → exec (.seqPush w) s = .next s)

/-- 40_capture.md R109: CE_COPY moves the head of the queue to the next element of the transfer's buffer; every other element
reads as before, and the last word ends the transfer. Without data-ready, or with no transfer, it has no step. -/
def Obligations.CeCopyMovesOneWord : Prop :=
  ∀ s : State,
    (∀ w rest, s.ceBusy = true → s.rxq = w :: rest →
      ∃ t, exec .ceCopy s = .next t ∧
        t = { s with buf0 := t.buf0, buf1 := t.buf1, rxq := rest, ceIdx := s.ceIdx + 1
                     ceBusy := decide (s.ceIdx + 1 ≠ 2 * s.cfg.spb) } ∧
        ∀ b j, t.bufWord b j = if b = s.ceDst ∧ j = s.ceIdx then w else s.bufWord b j) ∧
    (s.ceBusy = false ∨ s.rxq = [] → exec .ceCopy s = .next s)

/-- 40_capture.md R110, 20_memory.md R51 (inferences of the spec; no word is dropped by its decision D6): while a transfer
runs, the words copied so far followed by the words queued are exactly the words the sequencer produced, in order: a copy
keeps that stream, an accepted push appends its word, and nothing else but START_CAPTURE touches it. -/
def Obligations.CaptureStreamLosesNoWord : Prop :=
  ∀ (i : Instr) (s t : State), s.ceBusy = true → i ≠ .startCapture → exec i s = .next t →
    (List.range t.ceIdx).map (t.bufWord t.ceDst) ++ t.rxq =
      (List.range s.ceIdx).map (s.bufWord s.ceDst) ++ s.rxq ++
        (match i with
          | .seqPush w => if s.seqEn = true ∧ s.rxq.length < s.cfg.fifoDepth then [w] else []
          | _ => [])

/-- 40_capture.md R110, R103 (inferences of the spec, over its decisions D6, D33): a capture cycle of `BUFLEN` pushes and
`BUFLEN` copies, in any interleaving the queue's depth allows, puts the words, in order, into the back buffer, ends the
transfer, and leaves the front buffer alone. -/
def Obligations.CaptureCycleFillsTheBackBuffer : Prop :=
  ∀ (s : State) (ws : List Word) (is : List Instr), s.cfg.ok = true → s.setupDone = true → ws.length = 2 * s.cfg.spb →
    IsCaptureSchedule s.cfg.fifoDepth ws is →
    ∃ t, execAll (.startCapture :: is) s = .next t ∧
      t.front = s.front.other ∧ t.ceDst = s.front ∧ t.ceBusy = false ∧ t.ceIdx = 2 * s.cfg.spb ∧ t.rxq = [] ∧
      (∀ j, j < 2 * s.cfg.spb → t.bufWord s.front j = ws.getD j 0#32) ∧
      ∀ j, t.bufWord s.front.other j = s.bufWord s.front.other j

/-- 40_capture.md R103, R112, 41_decoder.md R122 (inferences of the spec, over its decisions D6, D12, D26, D33): the words
of one capture cycle, pushed and copied in any interleaving the queue's depth allows and ended by WAIT_CAPTURE, are the ones
the DECODE of the next cycle unpacks and publishes. -/
def Obligations.NextCycleDecodesTheCapturedWords : Prop :=
  ∀ (s : State) (ws : List Word) (is : List Instr), s.cfg.ok = true → s.setupDone = true → ws.length = 2 * s.cfg.spb →
    IsCaptureSchedule s.cfg.fifoDepth ws is →
    ∃ t, execAll (.startCapture :: is ++ [.waitCapture, .startCapture, .decode]) s = .next t ∧
      t.valid = true ∧ t.cursor = (s.cursor + 1) % s.cfg.ringN ∧ t.pubCount = s.pubCount + 1 ∧
      ∀ i c, i < s.cfg.spb → c < 3 →
        (t.ringEntry t.cursor (i * 6 + c)).toNat = (ws.getD (2 * i + 1) 0#32).toNat / 2 ^ (10 * c) % 1024 ∧
        (t.ringEntry t.cursor (i * 6 + (3 + c))).toNat = (ws.getD (2 * i) 0#32).toNat / 2 ^ (10 * c) % 1024

/-! ## Decoder -/

/-- 41_decoder.md R121: `unpack` gives the bits 9:0, 19:10 and 29:20, and the padding bits 31:30 never matter (the spec's own
decision D13). -/
def Obligations.UnpackGivesThreeFields : Prop :=
  ∀ w : Word,
    unpack w = [w.extractLsb' 0 10, w.extractLsb' 10 10, w.extractLsb' 20 10] ∧
    ∀ v : Word, v.extractLsb' 0 30 = w.extractLsb' 0 30 → unpack v = unpack w

/-- 41_decoder.md R122 with the race's marks of R124, in the order and the one step of the spec's own decisions D12, D26:
DECODE fills the next slot from the front buffer and publishes it, after marking what it overwrites; every other slot reads
as before, and nothing else changes. -/
def Obligations.DecodePublishesTheFrontBuffer : Prop :=
  (∀ f, Sys2Proof.decode f [0x03#8] = .ok .decode) ∧
  ∀ s : State, s.setupDone = true →
    ∃ t, exec .decode s = .next t ∧
      t = { s with
        ring := t.ring
        cursor := (s.cursor + 1) % s.cfg.ringN
        valid := true
        pubCount := s.pubCount + 1
        tainted := s.tainted || (s.inFlight && decide (s.blk = (s.cursor + 1) % s.cfg.ringN))
        xferQ := s.xferQ.map (fun x => { x with taint := x.taint || decide (x.slot = (s.cursor + 1) % s.cfg.ringN) }) } ∧
      (∀ i c, i < s.cfg.spb → c < 3 →
        t.ringEntry t.cursor (i * 6 + c) = ((s.bufWord s.front (2 * i + 1)).extractLsb' (10 * c) 10).setWidth 16 ∧
        t.ringEntry t.cursor (i * 6 + (3 + c)) = ((s.bufWord s.front (2 * i)).extractLsb' (10 * c) 10).setWidth 16) ∧
      ∀ slot e, slot ≠ t.cursor → e < s.cfg.spb * 6 → t.ringEntry slot e = s.ringEntry slot e

/-- 41_decoder.md R124 (92_eei_decisions.md D26): the overwrite of the in-flight slot is not prevented, it is marked:
`tainted` and the taint of every pending transfer of the slot. -/
def Obligations.DecodeMarksAnOverwrittenSend : Prop :=
  ∀ s : State, s.setupDone = true →
    ∃ t, exec .decode s = .next t ∧
      (t.tainted = true ↔ s.tainted = true ∨ (s.inFlight = true ∧ s.blk = t.cursor)) ∧
      t.xferQ.map (fun x => (x.slot, x.bytes)) = s.xferQ.map (fun x => (x.slot, x.bytes)) ∧
      t.xferQ.map Transfer.taint = s.xferQ.map (fun x => x.taint || decide (x.slot = t.cursor))

/-- 41_decoder.md R126: six samples packed by the rule, with any padding, come back at the six offsets of their sample. -/
def Obligations.DecodeRoundTripsPackedSamples : Prop :=
  ∀ (s : State) (i : Nat) (v0 v1 v2 v3 v4 v5 : BitVec 10) (p q : BitVec 2), s.setupDone = true → i < s.cfg.spb →
    s.bufWord s.front (2 * i + 1) = (p ++ v2 ++ v1 ++ v0 : BitVec 32) →
    s.bufWord s.front (2 * i) = (q ++ v5 ++ v4 ++ v3 : BitVec 32) →
    ∃ t, exec .decode s = .next t ∧
      (List.range 6).map (fun c => (t.ringEntry t.cursor (i * 6 + c)).toNat) =
        [v0.toNat, v1.toNat, v2.toNat, v3.toNat, v4.toNat, v5.toNat]

/-- 41_decoder.md R125: DECODE never writes the slot that is current. -/
def Obligations.DecodeSparesTheCurrentSlot : Prop :=
  ∀ s t : State, s.cfg.ok = true → s.cursor < s.cfg.ringN → exec .decode s = .next t →
    t.cursor ≠ s.cursor ∧ ∀ e, e < s.cfg.spb * 6 → t.ringEntry s.cursor e = s.ringEntry s.cursor e

/-- 41_decoder.md R123 (repeated DECODE): two DECODEs of one front buffer fill two successive slots with identical contents,
whatever the words of the front buffer are, written or not. -/
def Obligations.RepeatedDecodeGivesIdenticalBlocks : Prop :=
  ∀ s : State, s.cfg.ok = true → s.cursor < s.cfg.ringN → s.setupDone = true →
    ∃ t, execAll [.decode, .decode] s = .next t ∧ t.cursor = (s.cursor + 2) % s.cfg.ringN ∧ t.pubCount = s.pubCount + 2 ∧
      ∀ e, e < s.cfg.spb * 6 → t.ringEntry t.cursor e = t.ringEntry ((s.cursor + 1) % s.cfg.ringN) e

/-- 20_memory.md R69, R61: while CE fills the back buffer, its copy and a DECODE of the front buffer do not interfere: in
either order they give the same state. -/
def Obligations.CopyAndDecodeCommute : Prop :=
  ∀ s : State, s.setupDone = true → s.ceBusy = true → s.rxq ≠ [] → s.ceDst = s.front.other →
    ∃ t, execAll [.ceCopy, .decode] s = .next t ∧ execAll [.decode, .ceCopy] s = .next t

/-! ## Ownership -/

/-- 60_exceptions.md R180, 41_decoder.md R127, 10_state.md R22 to R35, 40_capture.md R108: each piece of state is written
only by the operations the spec names for it; everything else leaves it as it was. A CMD_RX clears `cmd_armed` and sets it
again in one step (R31), so over a whole step only LINK_INIT changes it. The outputs, the host's record and the draw count
are the model's own (log entries 10, 11, 13). -/
def Obligations.OnlyOwnersWriteEachState : Prop :=
  ∀ (i : Instr) (s t : State), exec i s = .next t →
    (i ≠ .startCapture → t.front = s.front ∧ t.ceDst = s.ceDst ∧ t.capStarted = s.capStarted) ∧
    (i ≠ .startCapture → i ≠ .ceCopy → t.ceIdx = s.ceIdx ∧ t.ceBusy = s.ceBusy) ∧
    (i ≠ .startCapture → i ≠ .waitCapture → t.seqEn = s.seqEn) ∧
    (i ≠ .startCapture → (∀ w, i ≠ .seqPush w) → t.seqPc = s.seqPc) ∧
    (i ≠ .startCapture → (∀ w, i ≠ .seqPush w) → i ≠ .ceCopy → t.rxq = s.rxq) ∧
    (i ≠ .ceCopy → ∀ b j, t.bufWord b j = s.bufWord b j) ∧
    (i ≠ .decode → t.cursor = s.cursor ∧ t.valid = s.valid ∧ t.pubCount = s.pubCount ∧
      ∀ slot e, t.ringEntry slot e = s.ringEntry slot e) ∧
    ((∀ n, i ≠ .grantCredit n) → i ≠ .beginSend → i ≠ .linkInit → t.credit = s.credit) ∧
    ((∀ n, i ≠ .grantCredit n) → i ≠ .beginSend → i ≠ .linkInit → i ≠ .chunkAck →
      t.inFlight = s.inFlight ∧ t.offset = s.offset) ∧
    (i ≠ .beginSend → t.blk = s.blk) ∧
    (i ≠ .beginSend → i ≠ .linkInit → t.lastSent = s.lastSent) ∧
    (i ≠ .linkInit → t.cmdArmed = s.cmdArmed) ∧
    ((∀ n, i ≠ .grantCredit n) → i ≠ .beginSend → i ≠ .linkInit → i ≠ .decode → t.tainted = s.tainted) ∧
    (i ≠ .beginSend → i ≠ .linkInit → i ≠ .chunkAck → i ≠ .chunkAckStray → i ≠ .decode → t.xferQ = s.xferQ) ∧
    (i ≠ .chunkAck → i ≠ .chunkAckStray → t.hostRx = s.hostRx) ∧
    (i = .decode ∨ (∃ w, i = .seqPush w) ∨ i = .ceCopy ∨ i = .chunkAckStray → t.outputs = s.outputs) ∧
    (i ≠ .chunkAck → i ≠ .chunkAckStray → (∀ w, i ≠ .seqPush w) → t.draws = s.draws) ∧
    (t.cfg = s.cfg ∧ t.setupDone = s.setupDone ∧ t.fgDone = s.fgDone ∧ t.fgNext = s.fgNext ∧
      t.initPending = s.initPending ∧ t.cmdPending = s.cmdPending ∧ t.moves = s.moves ∧ t.epoch = s.epoch)

/-- 60_exceptions.md R180, 70_reset_and_hazards.md R206, 20_memory.md R61: a LINK operation behaves alike in two states that
differ only in the capture side, and leaves the capture side as it was. -/
def Obligations.LinkOperationsIgnoreCapture : Prop :=
  ∀ (i : Instr) (s t s' : State), agentOf i = some .link → s.SameLink t → exec i s = .next s' →
    ∃ t', exec i t = .next t' ∧ s'.SameLink t' ∧ t.SameCapture t'

/-! ## The link -/

/-- 42_streaming.md R141, with the spec's own decisions D16, D24, D38: LINK_INIT, in every state, gives a fresh session and
an armed command channel; `blk`, the ring and the capture side are as they were. -/
def Obligations.LinkInitCreatesAFreshSession : Prop :=
  (∀ f, Sys2Proof.decode f [0x08#8] = .ok .linkInit) ∧
  ∀ s : State,
    exec .linkInit s = .next { s with
      credit := 0#8
      inFlight := false
      offset := 0
      lastSent := none
      tainted := false
      xferQ := []
      cmdArmed := true
      outputs := s.outputs ++ [.armCmd 2] }

/-- 42_streaming.md R143, R144, R145: a payload of another length than 2, another opcode than 0x01, and a grant of 0 change
nothing of the session; the channel is armed again. -/
def Obligations.IgnoredCommandsChangeNoSession : Prop :=
  ∀ (f : Bool) (s : State), s.cmdArmed = true →
    (∀ payload : List Byte, payload.length ≠ 2 → payload.length ≤ 255 →
      Sys2Proof.decode f (0x09#8 :: payload) = .ok (.cmdBadLen payload) ∧
      exec (.cmdBadLen payload) s = .next { s with cmdArmed := true, outputs := s.outputs ++ [.armCmd 2] }) ∧
    (∀ byte0 byte1 : Byte, byte0 ≠ 0x01#8 →
      Sys2Proof.decode f [0x09#8, byte0, byte1] = .ok (.cmdBadOp byte0 byte1) ∧
      exec (.cmdBadOp byte0 byte1) s = .next { s with cmdArmed := true, outputs := s.outputs ++ [.armCmd 2] }) ∧
    Sys2Proof.decode f [0x09#8, 0x01#8, 0x00#8] = .ok .grantZero ∧
    exec .grantZero s = .next { s with cmdArmed := true, outputs := s.outputs ++ [.armCmd 2] }

/-- 42_streaming.md R146, with the spec's own decisions D16, D21: a grant of N, 1 to 255, replaces the credit and abandons
the send; `last_sent`, `blk` and `xfer_q` stay, the derived state is ARMED, the channel is armed again. -/
def Obligations.GrantReplacesCreditAndAbandonsSend : Prop :=
  ∀ (f : Bool) (s : State) (n : Byte), n ≠ 0#8 →
    Sys2Proof.decode f [0x09#8, 0x01#8, n] = .ok (.grantCredit n) ∧
    (s.cmdArmed = true → ∃ t, exec (.grantCredit n) s = .next t ∧ t.ssmState = .armed ∧
      t = { s with
        credit := n
        inFlight := false
        offset := 0
        tainted := false
        cmdArmed := true
        outputs := s.outputs ++ [.armCmd 2] })

/-- 42_streaming.md R142 (92_eei_decisions.md D24): before the channel is armed there is no CMD_RX event: none of the four
rows has a step. -/
def Obligations.UnarmedChannelReceivesNothing : Prop :=
  ∀ (s : State) (i : Instr), s.cmdArmed = false →
    ((∃ p, i = .cmdBadLen p) ∨ (∃ a b, i = .cmdBadOp a b) ∨ i = .grantZero ∨ ∃ n, i = .grantCredit n) → exec i s = .next s

/-- 42_streaming.md R147: whatever the row, a CMD_RX ends with the channel armed and `ARM_CMD(2)` emitted. -/
def Obligations.EveryCommandRearmsTheChannel : Prop :=
  ∀ (s : State) (i : Instr), s.cmdArmed = true →
    ((∃ p, i = .cmdBadLen p) ∨ (∃ a b, i = .cmdBadOp a b) ∨ i = .grantZero ∨ ∃ n, i = .grantCredit n) →
    ∃ t, exec i s = .next t ∧ t.cmdArmed = true ∧ t.outputs = s.outputs ++ [.armCmd 2]

/-- 42_streaming.md R152, with the chunk of R153, by the spec's own decisions D15, D18, D19: BEGIN_SEND under its guard
starts the current block and issues its first chunk; with its guard false it has no step. -/
def Obligations.BeginSendStartsTheCurrentBlock : Prop :=
  ∀ s : State,
    (∀ id, s.inFlight = false → s.credit.toNat > 0 → s.curId = some id → s.lastSent ≠ some id →
      ∃ c : BitVec 8, c.toNat = s.credit.toNat - 1 ∧
        exec .beginSend s = .next { s with
          inFlight := true
          credit := c
          lastSent := some id
          blk := s.cursor
          offset := 0
          tainted := false
          xferQ := s.xferQ ++ [⟨s.cursor, (List.range (min 64 (s.cfg.spb * 12))).map (s.blockByte s.cursor), false⟩]
          outputs := s.outputs ++ [.beginTransfer ((List.range (min 64 (s.cfg.spb * 12))).map (s.blockByte s.cursor))] }) ∧
    ((s.inFlight = true ∨ s.credit = 0#8 ∨ s.curId = none ∨ s.curId = s.lastSent) → exec .beginSend s = .next s)

/-- 10_state.md R36: the named state, as `in_flight` and `credit` give it. -/
def Obligations.NamedStateFollowsTheFlags : Prop :=
  ∀ s : State,
    (s.ssmState = .sending ↔ s.inFlight = true) ∧
    (s.ssmState = .armed ↔ s.inFlight = false ∧ s.credit.toNat > 0) ∧
    (s.ssmState = .idle ↔ s.inFlight = false ∧ s.credit = 0#8)

/-- 10_state.md R37 (the spec's own decision D15): the identity of the current block. -/
def Obligations.CurrentIdentityFollowsTheMode : Prop :=
  ∀ s : State,
    (s.valid = false → s.curId = none) ∧
    (s.valid = true → s.cfg.idMode = .slot → s.curId = some s.cursor) ∧
    (s.valid = true → s.cfg.idMode = .seq → s.curId = some s.pubCount)

/-- 20_memory.md R53 (92_eei_decisions.md D3, D4): entry e of a block is at its bytes 2e and 2e + 1, low byte first. -/
def Obligations.BlockBytesAreLittleEndian : Prop :=
  ∀ (s : State) (slot e : Nat),
    (s.blockByte slot (2 * e)).toNat = (s.ringEntry slot e).toNat % 256 ∧
    (s.blockByte slot (2 * e + 1)).toNat = (s.ringEntry slot e).toNat / 256

/-- 42_streaming.md R155, with R153, R154 and the stray branch R156, by the spec's own decisions D20, D22, D23: CHUNK_ACK
takes the oldest transfer, whose bytes reach the host (its own unless tainted). With a block in flight the offset advances;
short of the end the next chunk is issued, at the end the block is no longer in flight. With none in flight only the
transfer goes. With no transfer pending there is no step. The drawn bytes and the draw count are left open (log entry 10).
-/
def Obligations.ChunkAckAdvancesTheSend : Prop :=
  Sys2Proof.decode true [0x0A#8] = .ok .chunkAck ∧
  ∀ s : State,
    (∀ x rest, s.xferQ = x :: rest →
      ∃ got d, got.length = x.bytes.length ∧ (x.taint = false → got = x.bytes) ∧
        (s.inFlight = false →
          exec .chunkAck s = .next { s with xferQ := rest, hostRx := s.hostRx ++ [got], draws := d }) ∧
        (s.inFlight = true → s.offset + min 64 (s.cfg.blockBytes - s.offset) ≥ s.cfg.blockBytes →
          exec .chunkAck s = .next { s with
            offset := s.offset + min 64 (s.cfg.blockBytes - s.offset)
            inFlight := false
            xferQ := rest
            hostRx := s.hostRx ++ [got]
            draws := d }) ∧
        (s.inFlight = true → s.offset + min 64 (s.cfg.blockBytes - s.offset) < s.cfg.blockBytes →
          ∃ bytes d', bytes.length = min 64 (s.cfg.blockBytes - (s.offset + min 64 (s.cfg.blockBytes - s.offset))) ∧
            (s.tainted = false → bytes = (List.range bytes.length).map
              (fun k => s.blockByte s.blk (s.offset + min 64 (s.cfg.blockBytes - s.offset) + k))) ∧
            exec .chunkAck s = .next { s with
              offset := s.offset + min 64 (s.cfg.blockBytes - s.offset)
              xferQ := rest ++ [⟨s.blk, bytes, s.tainted⟩]
              outputs := s.outputs ++ [.beginTransfer bytes]
              hostRx := s.hostRx ++ [got]
              draws := d' })) ∧
    (s.xferQ = [] → exec .chunkAck s = .next s)

/-- 42_streaming.md R156: an acknowledgement with no block in flight removes the oldest transfer, the host receives its
bytes, and the session does not change. A tainted transfer's bytes arrive as some bytes of the same length (R154, the spec's
own decisions D23, D26); that `in_flight` selects the row of code 0xA is the model's reading (log entry 14). -/
def Obligations.StrayAckChangesNoSession : Prop :=
  Sys2Proof.decode false [0x0A#8] = .ok .chunkAckStray ∧
  ∀ (s : State) (x : Transfer) (rest : List Transfer), s.inFlight = false → s.xferQ = x :: rest →
    ∃ got d, got.length = x.bytes.length ∧ (x.taint = false → got = x.bytes) ∧
      exec .chunkAckStray s = .next { s with xferQ := rest, hostRx := s.hostRx ++ [got], draws := d }

/-- 42_streaming.md R154 (92_eei_decisions.md D23, D26), 95_test_vectors.md ACK6: whether a block is in flight or not, the
bytes the host receives of the oldest transfer are its own, or, if it is tainted, a fresh draw of the same length (the draw
count is past it afterwards; log entries 10, 11). -/
def Obligations.TaintedTransferReachesHostAsADraw : Prop :=
  ∀ (s : State) (x : Transfer) (rest : List Transfer), s.xferQ = x :: rest →
    (∃ t, exec .chunkAck s = .next t ∧
      t.hostRx = s.hostRx ++
        [if x.taint then (List.range x.bytes.length).map (Config.freeByte s.draws) else x.bytes] ∧
      (x.taint = true → s.draws < t.draws)) ∧
    (s.inFlight = false → ∃ t, exec .chunkAckStray s = .next t ∧
      t.hostRx = s.hostRx ++
        [if x.taint then (List.range x.bytes.length).map (Config.freeByte s.draws) else x.bytes] ∧
      t.draws = if x.taint then s.draws + 1 else s.draws)

/-- 42_streaming.md R157, R152, R153, R155 (an inference of the spec, over its decisions D3, D4, D19): a block sent without
interference is delivered in ceil(`BB` / 64) chunks, each of 64 bytes but the last, that together are the block's bytes in
order; then no block is in flight and no transfer pending. -/
def Obligations.UndisturbedSendDeliversTheBlock : Prop :=
  ∀ s : State, s.cfg.ok = true → s.sendReady = true → s.xferQ = [] →
    ∃ t chunks, execAll (.beginSend :: List.replicate ((s.cfg.spb * 12 + 63) / 64) .chunkAck) s = .next t ∧
      t.inFlight = false ∧ t.offset = s.cfg.spb * 12 ∧ t.xferQ = [] ∧ t.credit.toNat = s.credit.toNat - 1 ∧
      t.hostRx = s.hostRx ++ chunks ∧ chunks.length = (s.cfg.spb * 12 + 63) / 64 ∧
      chunks.flatten = (List.range (s.cfg.spb * 12)).map (s.blockByte s.cursor) ∧
      ∀ k c, chunks[k]? = some c → c.length = min 64 (s.cfg.spb * 12 - 64 * k)

/-- 42_streaming.md R158, R146, 70_reset_and_hazards.md R205 (an inference of the spec, over its decision D21): after a
grant that abandons a send, a new block begun before the old chunk's completion takes that completion as its own: its offset
is a chunk ahead while its first chunk is still pending. -/
def Obligations.StaleCompletionCountsForTheNewBlock : Prop :=
  ∀ (s : State) (x : Transfer) (n : Byte), s.cfg.ok = true → s.setupDone = true → s.cmdArmed = true → s.inFlight = true →
    s.xferQ = [x] → n ≠ 0#8 → s.cfg.idMode = .slot → s.lastSent ≠ some ((s.cursor + 1) % s.cfg.ringN) →
    ∃ t u, execAll [.grantCredit n, .decode, .beginSend] s = .next t ∧ t.inFlight = true ∧ t.offset = 0 ∧
      t.blk = (s.cursor + 1) % s.cfg.ringN ∧ t.xferQ.length = 2 ∧ exec .chunkAck t = .next u ∧
      u.offset = min 64 (s.cfg.spb * 12) ∧ u.hostRx.length = s.hostRx.length + 1 ∧
      u.xferQ.head? = some ⟨t.blk, t.chunkBytes t.blk 0, false⟩ ∧
      (u.inFlight = true ↔ 64 < s.cfg.spb * 12)

/-- 42_streaming.md R160 (an inference of the spec, over its decision D16): once the current block has been begun, no
sequence of operations without a DECODE or a LINK_INIT, with any credit, begins a send again. -/
def Obligations.NoSendWithoutANewBlock : Prop :=
  (∀ s t, s.sendReady = true → exec .beginSend s = .next t → t.lastSent = t.curId ∧ t.valid = true) ∧
  ∀ (is : List Instr) (s t : State), s.lastSent = s.curId → (∀ i ∈ is, i ≠ .decode ∧ i ≠ .linkInit) →
    execAll is s = .next t → t.lastSent = t.curId ∧ exec .beginSend t = .next t

/-- 42_streaming.md R161, R146, R152, R155 (an inference of the spec): after a link start and a grant of N, N rounds of a
DECODE and a fully acknowledged send use the credit up: the state is IDLE. -/
def Obligations.NCompleteSendsExhaustTheCredit : Prop :=
  ∀ (s : State) (n : Byte), s.cfg.ok = true → s.setupDone = true → n ≠ 0#8 →
    ∃ t, execAll (.linkInit :: .grantCredit n ::
        (List.replicate n.toNat
          (.decode :: .beginSend :: List.replicate ((s.cfg.spb * 12 + 63) / 64) .chunkAck)).flatten) s = .next t ∧
      t.credit = 0#8 ∧ t.inFlight = false ∧ t.ssmState = .idle ∧ t.xferQ = [] ∧
      t.hostRx.length = s.hostRx.length + n.toNat * ((s.cfg.spb * 12 + 63) / 64)

/-- 70_reset_and_hazards.md R204, 10_state.md R37 (the spec's own decision D15): under `SLOT`, any multiple of `RING_N`
publishes since the last send leaves BEGIN_SEND without a step; under `SEQ`, any publish enables it. -/
def Obligations.SlotIdentityAliasesAfterAFullRing : Prop :=
  (∀ (s : State) (k : Nat), s.cfg.ok = true → s.setupDone = true → s.cfg.idMode = .slot → s.valid = true →
    s.cursor < s.cfg.ringN → s.lastSent = some s.cursor →
    ∃ t, execAll (List.replicate (k * s.cfg.ringN) .decode) s = .next t ∧ t.pubCount = s.pubCount + k * s.cfg.ringN ∧
      exec .beginSend t = .next t) ∧
  (∀ (s : State) (k : Nat), s.setupDone = true → s.cfg.idMode = .seq → s.inFlight = false → s.credit ≠ 0#8 →
    s.lastSent = some s.pubCount →
    ∃ t u, execAll (List.replicate (k + 1) .decode) s = .next t ∧ exec .beginSend t = .next u ∧ u.inFlight = true ∧
      u.lastSent = some (s.pubCount + (k + 1)) ∧ u.blk = t.cursor)

/-! ## Invariants -/

/-- 20_memory.md R50, 10_state.md R23, R26, 40_capture.md R109: every step keeps what is written inside the ranges of the
storage spaces, and written ring entries 10-bit samples; CE never writes index `BUFLEN` or beyond. That each space is a list
with rising indices (the clauses `buf_wf` and `ring_wf`) is the model's choice of representation, no rule's (log entry 12).
-/
def Obligations.StepKeepsStorageInRange : Prop :=
  ∀ s t : State, s.StorageInv → step s = .next t → t.StorageInv

/-- 20_memory.md R61, 10_state.md R24, R25, R33, 40_capture.md R107: every step keeps the capture discipline. -/
def Obligations.StepKeepsCaptureOwnership : Prop :=
  ∀ s t : State, s.CaptureInv → step s = .next t → t.CaptureInv

/-- 10_state.md R30, R31, R37, 42_streaming.md R152, R153, R155: every step keeps the session consistent; so a chunk never
starts past the end of the block and a block in flight always awaits a completion. -/
def Obligations.StepKeepsSessionConsistent : Prop :=
  ∀ s t : State, s.SessionInv → step s = .next t → t.SessionInv

/-- 42_streaming.md R153, R154: every step keeps the pending transfers whole: 1 to 64 bytes each, and, untouched by the
race, still the bytes of their slot. -/
def Obligations.StepKeepsUntaintedTransfersTrue : Prop :=
  ∀ s t : State, s.SessionInv → s.TransferInv → step s = .next t → t.TransferInv

/-- 42_streaming.md R153, R155, 41_decoder.md R124: every step keeps the newest pending transfer the chunk at `offset` of
the block in flight. -/
def Obligations.StepKeepsTheChunkInTransit : Prop :=
  ∀ s t : State, s.InTransitInv → step s = .next t → t.InTransitInv

/-- 70_reset_and_hazards.md R190: the state after any reset, under any admitted parameters, meets the six invariants. -/
def Obligations.ResetMeetsTheInvariants : Prop :=
  ∀ (p : Config.Params) (e : Nat), p.ok = true →
    (State.resetWith p e).StorageInv ∧ (State.resetWith p e).CaptureInv ∧ (State.resetWith p e).SessionInv ∧
    (State.resetWith p e).TransferInv ∧ (State.resetWith p e).InTransitInv ∧ (State.resetWith p e).PendingInv

/-- 70_reset_and_hazards.md R190, R192: the values a reset gives (the spec's own decisions, 92_eei_decisions.md D7, D9, D14,
D16, D24, D34), and that no autonomous step, no command, no acknowledgement and no wait is enabled there. -/
def Obligations.ResetStateIsQuiet : Prop :=
  ∀ (p : Config.Params) (e : Nat) (s : State), s = State.resetWith p e →
    (s.front = .b0 ∧ s.ceDst = .b0 ∧ s.ceIdx = 0 ∧ s.ceBusy = false ∧ s.capStarted = false) ∧
    (s.cursor = 0 ∧ s.valid = false ∧ s.pubCount = 0) ∧
    (s.credit = 0#8 ∧ s.inFlight = false ∧ s.blk = 0 ∧ s.offset = 0 ∧ s.lastSent = none ∧ s.cmdArmed = false ∧
      s.tainted = false ∧ s.ssmState = .idle) ∧
    (s.seqEn = false ∧ s.rxq = [] ∧ s.xferQ = []) ∧
    (∀ i t, i ≠ .startCapture → i ≠ .decode → i ≠ .linkInit → exec i s = .next t → t = s)

/-- 70_reset_and_hazards.md R190, R191: a device reset puts the block into a reset state with fresh draws; that the
parameters, the hardware setup, the environment's own state and its records stay is the model's choice (log entry 6). With
the channel not armed no command is pending (60_exceptions.md R173). -/
def Obligations.DeviceResetGivesAResetState : Prop :=
  ∀ (s : State) (ms : List Move), s.cfg.ok = true → s.moves = .deviceReset :: ms →
    step s = .next { State.resetWith s.cfg (s.epoch + 1) with
      setupDone := s.setupDone
      outputs := s.outputs
      hostRx := s.hostRx
      fgNext := s.fgDone ++ s.fgNext
      initPending := s.initPending
      moves := ms
      draws := s.draws }

/-- 60_exceptions.md R173, 42_streaming.md R162, 30_encoding.md R70: every step keeps the pending command one of an armed
channel and of at most 255 bytes. -/
def Obligations.StepKeepsThePendingCommandArmed : Prop :=
  ∀ s t : State, s.PendingInv → step s = .next t → t.PendingInv

/-! ## Progress -/

/-- 70_reset_and_hazards.md R195: in a quiescent state every move but a push of the sequencer or a move of the environment
leaves the block as it was, so the state stays quiescent. -/
def Obligations.QuiescentStateRests : Prop :=
  ∀ s : State, s.cfg.ok = true → s.Quiescent → (∀ w, s.nextMove ≠ .seqPush w) → ofEnvironment s.nextMove = false →
    step s = .next s.takeMove ∧ s.takeMove.Quiescent

/-- 92_eei_decisions.md D36, 40_capture.md R109: in an infinite run that is fair to CE, a word waiting for a running
transfer is copied, unless a START_CAPTURE or a device reset comes. -/
def Obligations.FairCopyEngineMakesProgress : Prop :=
  ∀ (r : Nat → State) (n : Nat), IsRun r → WeaklyFair .ceCopy r → (r n).ceReady = true →
    ∃ m, n ≤ m ∧ ((r m).stepOp = some .startCapture ∨ (r m).resetsNext ∨
      ((r m).stepOp = some .ceCopy ∧ (r (m + 1)).ceIdx = (r n).ceIdx + 1 ∧
        (r (m + 1)).bufWord (r n).ceDst (r n).ceIdx = (r n).rxq.headD 0#32))

/-- 92_eei_decisions.md D36, D18, 42_streaming.md R152: in an infinite run that is fair to BEGIN_SEND, an enabled send
begins, unless a DECODE, a LINK_INIT or a device reset comes. -/
def Obligations.FairSenderBeginsTheSend : Prop :=
  ∀ (r : Nat → State) (n : Nat), IsRun r → WeaklyFair .beginSend r → (r n).sendReady = true →
    ∃ m, n ≤ m ∧ ((r m).stepOp = some .decode ∨ (r m).stepOp = some .linkInit ∨ (r m).resetsNext ∨
      ((r m).stepOp = some .beginSend ∧ (r (m + 1)).inFlight = true ∧ (r (m + 1)).lastSent = (r n).curId))
end

