-- ==== Sys2Proof/Laws/State.lean ====
section
/-! SUPPORT. What each shared update of the state leaves as it was, one lemma per field, and what it writes, so that no later
proof unfolds a record update. -/

namespace Sys2Proof.Machine

@[simp] theorem other_other (b : BufId) : b.other.other = b := by cases b <;> rfl

theorem other_ne (b : BufId) : b.other ≠ b := by cases b <;> decide

@[simp] theorem emit_outputs (s : State) (os : List Output) : (s.emit os).outputs = s.outputs ++ os := rfl

@[simp] theorem setBuf_buf_same (s : State) (b : BufId) (m : Memory 32) : (s.setBuf b m).buf b = m := by cases b <;> rfl

theorem setBuf_buf_other (s : State) {b c : BufId} (m : Memory 32) (h : c ≠ b) : (s.setBuf b m).buf c = s.buf c := by
  cases b <;> cases c <;> first | rfl | exact absurd rfl h

@[simp] theorem writeSlot_ring (s : State) (t : Nat) (es : List Entry) :
    (s.writeSlot t es).ring = Memory.writeFrom s.ring (ringIndex s.cfg t 0) es := rfl

@[simp] theorem publish_cursor (s : State) (t : Nat) : (publish t s).cursor = t := rfl

@[simp] theorem publish_valid (s : State) (t : Nat) : (publish t s).valid = true := rfl

@[simp] theorem publish_pubCount (s : State) (t : Nat) : (publish t s).pubCount = s.pubCount + 1 := rfl

@[simp] theorem rearm_cmdArmed (s : State) : (rearm s).cmdArmed = true := rfl

/-! `emit` changes the output record only. -/

@[simp] theorem emit_cfg (s : State) (os : List Output) : (s.emit os).cfg = s.cfg := rfl
@[simp] theorem emit_front (s : State) (os : List Output) : (s.emit os).front = s.front := rfl
@[simp] theorem emit_buf0 (s : State) (os : List Output) : (s.emit os).buf0 = s.buf0 := rfl
@[simp] theorem emit_buf1 (s : State) (os : List Output) : (s.emit os).buf1 = s.buf1 := rfl
@[simp] theorem emit_ceDst (s : State) (os : List Output) : (s.emit os).ceDst = s.ceDst := rfl
@[simp] theorem emit_ceIdx (s : State) (os : List Output) : (s.emit os).ceIdx = s.ceIdx := rfl
@[simp] theorem emit_ceBusy (s : State) (os : List Output) : (s.emit os).ceBusy = s.ceBusy := rfl
@[simp] theorem emit_capStarted (s : State) (os : List Output) : (s.emit os).capStarted = s.capStarted := rfl
@[simp] theorem emit_ring (s : State) (os : List Output) : (s.emit os).ring = s.ring := rfl
@[simp] theorem emit_cursor (s : State) (os : List Output) : (s.emit os).cursor = s.cursor := rfl
@[simp] theorem emit_valid (s : State) (os : List Output) : (s.emit os).valid = s.valid := rfl
@[simp] theorem emit_pubCount (s : State) (os : List Output) : (s.emit os).pubCount = s.pubCount := rfl
@[simp] theorem emit_credit (s : State) (os : List Output) : (s.emit os).credit = s.credit := rfl
@[simp] theorem emit_inFlight (s : State) (os : List Output) : (s.emit os).inFlight = s.inFlight := rfl
@[simp] theorem emit_blk (s : State) (os : List Output) : (s.emit os).blk = s.blk := rfl
@[simp] theorem emit_offset (s : State) (os : List Output) : (s.emit os).offset = s.offset := rfl
@[simp] theorem emit_lastSent (s : State) (os : List Output) : (s.emit os).lastSent = s.lastSent := rfl
@[simp] theorem emit_cmdArmed (s : State) (os : List Output) : (s.emit os).cmdArmed = s.cmdArmed := rfl
@[simp] theorem emit_tainted (s : State) (os : List Output) : (s.emit os).tainted = s.tainted := rfl
@[simp] theorem emit_seqEn (s : State) (os : List Output) : (s.emit os).seqEn = s.seqEn := rfl
@[simp] theorem emit_seqPc (s : State) (os : List Output) : (s.emit os).seqPc = s.seqPc := rfl
@[simp] theorem emit_rxq (s : State) (os : List Output) : (s.emit os).rxq = s.rxq := rfl
@[simp] theorem emit_xferQ (s : State) (os : List Output) : (s.emit os).xferQ = s.xferQ := rfl
@[simp] theorem emit_setupDone (s : State) (os : List Output) : (s.emit os).setupDone = s.setupDone := rfl
@[simp] theorem emit_hostRx (s : State) (os : List Output) : (s.emit os).hostRx = s.hostRx := rfl
@[simp] theorem emit_fgDone (s : State) (os : List Output) : (s.emit os).fgDone = s.fgDone := rfl
@[simp] theorem emit_fgNext (s : State) (os : List Output) : (s.emit os).fgNext = s.fgNext := rfl
@[simp] theorem emit_initPending (s : State) (os : List Output) : (s.emit os).initPending = s.initPending := rfl
@[simp] theorem emit_cmdPending (s : State) (os : List Output) : (s.emit os).cmdPending = s.cmdPending := rfl
@[simp] theorem emit_moves (s : State) (os : List Output) : (s.emit os).moves = s.moves := rfl
@[simp] theorem emit_draws (s : State) (os : List Output) : (s.emit os).draws = s.draws := rfl
@[simp] theorem emit_epoch (s : State) (os : List Output) : (s.emit os).epoch = s.epoch := rfl

/-! Replacing a buffer changes the two buffers only. -/

@[simp] theorem setBuf_cfg (s : State) (b : BufId) (m : Memory 32) : (s.setBuf b m).cfg = s.cfg := by cases b <;> rfl
@[simp] theorem setBuf_front (s : State) (b : BufId) (m : Memory 32) : (s.setBuf b m).front = s.front := by cases b <;> rfl
@[simp] theorem setBuf_ceDst (s : State) (b : BufId) (m : Memory 32) : (s.setBuf b m).ceDst = s.ceDst := by cases b <;> rfl
@[simp] theorem setBuf_ceIdx (s : State) (b : BufId) (m : Memory 32) : (s.setBuf b m).ceIdx = s.ceIdx := by cases b <;> rfl
@[simp] theorem setBuf_ceBusy (s : State) (b : BufId) (m : Memory 32) : (s.setBuf b m).ceBusy = s.ceBusy := by cases b <;> rfl
@[simp] theorem setBuf_capStarted (s : State) (b : BufId) (m : Memory 32) : (s.setBuf b m).capStarted = s.capStarted := by cases b <;> rfl
@[simp] theorem setBuf_ring (s : State) (b : BufId) (m : Memory 32) : (s.setBuf b m).ring = s.ring := by cases b <;> rfl
@[simp] theorem setBuf_cursor (s : State) (b : BufId) (m : Memory 32) : (s.setBuf b m).cursor = s.cursor := by cases b <;> rfl
@[simp] theorem setBuf_valid (s : State) (b : BufId) (m : Memory 32) : (s.setBuf b m).valid = s.valid := by cases b <;> rfl
@[simp] theorem setBuf_pubCount (s : State) (b : BufId) (m : Memory 32) : (s.setBuf b m).pubCount = s.pubCount := by cases b <;> rfl
@[simp] theorem setBuf_credit (s : State) (b : BufId) (m : Memory 32) : (s.setBuf b m).credit = s.credit := by cases b <;> rfl
@[simp] theorem setBuf_inFlight (s : State) (b : BufId) (m : Memory 32) : (s.setBuf b m).inFlight = s.inFlight := by cases b <;> rfl
@[simp] theorem setBuf_blk (s : State) (b : BufId) (m : Memory 32) : (s.setBuf b m).blk = s.blk := by cases b <;> rfl
@[simp] theorem setBuf_offset (s : State) (b : BufId) (m : Memory 32) : (s.setBuf b m).offset = s.offset := by cases b <;> rfl
@[simp] theorem setBuf_lastSent (s : State) (b : BufId) (m : Memory 32) : (s.setBuf b m).lastSent = s.lastSent := by cases b <;> rfl
@[simp] theorem setBuf_cmdArmed (s : State) (b : BufId) (m : Memory 32) : (s.setBuf b m).cmdArmed = s.cmdArmed := by cases b <;> rfl
@[simp] theorem setBuf_tainted (s : State) (b : BufId) (m : Memory 32) : (s.setBuf b m).tainted = s.tainted := by cases b <;> rfl
@[simp] theorem setBuf_seqEn (s : State) (b : BufId) (m : Memory 32) : (s.setBuf b m).seqEn = s.seqEn := by cases b <;> rfl
@[simp] theorem setBuf_seqPc (s : State) (b : BufId) (m : Memory 32) : (s.setBuf b m).seqPc = s.seqPc := by cases b <;> rfl
@[simp] theorem setBuf_rxq (s : State) (b : BufId) (m : Memory 32) : (s.setBuf b m).rxq = s.rxq := by cases b <;> rfl
@[simp] theorem setBuf_xferQ (s : State) (b : BufId) (m : Memory 32) : (s.setBuf b m).xferQ = s.xferQ := by cases b <;> rfl
@[simp] theorem setBuf_setupDone (s : State) (b : BufId) (m : Memory 32) : (s.setBuf b m).setupDone = s.setupDone := by cases b <;> rfl
@[simp] theorem setBuf_outputs (s : State) (b : BufId) (m : Memory 32) : (s.setBuf b m).outputs = s.outputs := by cases b <;> rfl
@[simp] theorem setBuf_hostRx (s : State) (b : BufId) (m : Memory 32) : (s.setBuf b m).hostRx = s.hostRx := by cases b <;> rfl
@[simp] theorem setBuf_fgDone (s : State) (b : BufId) (m : Memory 32) : (s.setBuf b m).fgDone = s.fgDone := by cases b <;> rfl
@[simp] theorem setBuf_fgNext (s : State) (b : BufId) (m : Memory 32) : (s.setBuf b m).fgNext = s.fgNext := by cases b <;> rfl
@[simp] theorem setBuf_initPending (s : State) (b : BufId) (m : Memory 32) : (s.setBuf b m).initPending = s.initPending := by cases b <;> rfl
@[simp] theorem setBuf_cmdPending (s : State) (b : BufId) (m : Memory 32) : (s.setBuf b m).cmdPending = s.cmdPending := by cases b <;> rfl
@[simp] theorem setBuf_moves (s : State) (b : BufId) (m : Memory 32) : (s.setBuf b m).moves = s.moves := by cases b <;> rfl
@[simp] theorem setBuf_draws (s : State) (b : BufId) (m : Memory 32) : (s.setBuf b m).draws = s.draws := by cases b <;> rfl
@[simp] theorem setBuf_epoch (s : State) (b : BufId) (m : Memory 32) : (s.setBuf b m).epoch = s.epoch := by cases b <;> rfl

/-! Filling a slot changes the ring only. -/

@[simp] theorem writeSlot_cfg (s : State) (t : Nat) (es : List Entry) : (s.writeSlot t es).cfg = s.cfg := rfl
@[simp] theorem writeSlot_front (s : State) (t : Nat) (es : List Entry) : (s.writeSlot t es).front = s.front := rfl
@[simp] theorem writeSlot_buf0 (s : State) (t : Nat) (es : List Entry) : (s.writeSlot t es).buf0 = s.buf0 := rfl
@[simp] theorem writeSlot_buf1 (s : State) (t : Nat) (es : List Entry) : (s.writeSlot t es).buf1 = s.buf1 := rfl
@[simp] theorem writeSlot_ceDst (s : State) (t : Nat) (es : List Entry) : (s.writeSlot t es).ceDst = s.ceDst := rfl
@[simp] theorem writeSlot_ceIdx (s : State) (t : Nat) (es : List Entry) : (s.writeSlot t es).ceIdx = s.ceIdx := rfl
@[simp] theorem writeSlot_ceBusy (s : State) (t : Nat) (es : List Entry) : (s.writeSlot t es).ceBusy = s.ceBusy := rfl
@[simp] theorem writeSlot_capStarted (s : State) (t : Nat) (es : List Entry) : (s.writeSlot t es).capStarted = s.capStarted := rfl
@[simp] theorem writeSlot_cursor (s : State) (t : Nat) (es : List Entry) : (s.writeSlot t es).cursor = s.cursor := rfl
@[simp] theorem writeSlot_valid (s : State) (t : Nat) (es : List Entry) : (s.writeSlot t es).valid = s.valid := rfl
@[simp] theorem writeSlot_pubCount (s : State) (t : Nat) (es : List Entry) : (s.writeSlot t es).pubCount = s.pubCount := rfl
@[simp] theorem writeSlot_credit (s : State) (t : Nat) (es : List Entry) : (s.writeSlot t es).credit = s.credit := rfl
@[simp] theorem writeSlot_inFlight (s : State) (t : Nat) (es : List Entry) : (s.writeSlot t es).inFlight = s.inFlight := rfl
@[simp] theorem writeSlot_blk (s : State) (t : Nat) (es : List Entry) : (s.writeSlot t es).blk = s.blk := rfl
@[simp] theorem writeSlot_offset (s : State) (t : Nat) (es : List Entry) : (s.writeSlot t es).offset = s.offset := rfl
@[simp] theorem writeSlot_lastSent (s : State) (t : Nat) (es : List Entry) : (s.writeSlot t es).lastSent = s.lastSent := rfl
@[simp] theorem writeSlot_cmdArmed (s : State) (t : Nat) (es : List Entry) : (s.writeSlot t es).cmdArmed = s.cmdArmed := rfl
@[simp] theorem writeSlot_tainted (s : State) (t : Nat) (es : List Entry) : (s.writeSlot t es).tainted = s.tainted := rfl
@[simp] theorem writeSlot_seqEn (s : State) (t : Nat) (es : List Entry) : (s.writeSlot t es).seqEn = s.seqEn := rfl
@[simp] theorem writeSlot_seqPc (s : State) (t : Nat) (es : List Entry) : (s.writeSlot t es).seqPc = s.seqPc := rfl
@[simp] theorem writeSlot_rxq (s : State) (t : Nat) (es : List Entry) : (s.writeSlot t es).rxq = s.rxq := rfl
@[simp] theorem writeSlot_xferQ (s : State) (t : Nat) (es : List Entry) : (s.writeSlot t es).xferQ = s.xferQ := rfl
@[simp] theorem writeSlot_setupDone (s : State) (t : Nat) (es : List Entry) : (s.writeSlot t es).setupDone = s.setupDone := rfl
@[simp] theorem writeSlot_outputs (s : State) (t : Nat) (es : List Entry) : (s.writeSlot t es).outputs = s.outputs := rfl
@[simp] theorem writeSlot_hostRx (s : State) (t : Nat) (es : List Entry) : (s.writeSlot t es).hostRx = s.hostRx := rfl
@[simp] theorem writeSlot_fgDone (s : State) (t : Nat) (es : List Entry) : (s.writeSlot t es).fgDone = s.fgDone := rfl
@[simp] theorem writeSlot_fgNext (s : State) (t : Nat) (es : List Entry) : (s.writeSlot t es).fgNext = s.fgNext := rfl
@[simp] theorem writeSlot_initPending (s : State) (t : Nat) (es : List Entry) : (s.writeSlot t es).initPending = s.initPending := rfl
@[simp] theorem writeSlot_cmdPending (s : State) (t : Nat) (es : List Entry) : (s.writeSlot t es).cmdPending = s.cmdPending := rfl
@[simp] theorem writeSlot_moves (s : State) (t : Nat) (es : List Entry) : (s.writeSlot t es).moves = s.moves := rfl
@[simp] theorem writeSlot_draws (s : State) (t : Nat) (es : List Entry) : (s.writeSlot t es).draws = s.draws := rfl
@[simp] theorem writeSlot_epoch (s : State) (t : Nat) (es : List Entry) : (s.writeSlot t es).epoch = s.epoch := rfl

/-! A publish changes the cursor, `valid` and the publish count only. -/

@[simp] theorem publish_cfg (s : State) (t : Nat) : (publish t s).cfg = s.cfg := rfl
@[simp] theorem publish_front (s : State) (t : Nat) : (publish t s).front = s.front := rfl
@[simp] theorem publish_buf0 (s : State) (t : Nat) : (publish t s).buf0 = s.buf0 := rfl
@[simp] theorem publish_buf1 (s : State) (t : Nat) : (publish t s).buf1 = s.buf1 := rfl
@[simp] theorem publish_ceDst (s : State) (t : Nat) : (publish t s).ceDst = s.ceDst := rfl
@[simp] theorem publish_ceIdx (s : State) (t : Nat) : (publish t s).ceIdx = s.ceIdx := rfl
@[simp] theorem publish_ceBusy (s : State) (t : Nat) : (publish t s).ceBusy = s.ceBusy := rfl
@[simp] theorem publish_capStarted (s : State) (t : Nat) : (publish t s).capStarted = s.capStarted := rfl
@[simp] theorem publish_ring (s : State) (t : Nat) : (publish t s).ring = s.ring := rfl
@[simp] theorem publish_credit (s : State) (t : Nat) : (publish t s).credit = s.credit := rfl
@[simp] theorem publish_inFlight (s : State) (t : Nat) : (publish t s).inFlight = s.inFlight := rfl
@[simp] theorem publish_blk (s : State) (t : Nat) : (publish t s).blk = s.blk := rfl
@[simp] theorem publish_offset (s : State) (t : Nat) : (publish t s).offset = s.offset := rfl
@[simp] theorem publish_lastSent (s : State) (t : Nat) : (publish t s).lastSent = s.lastSent := rfl
@[simp] theorem publish_cmdArmed (s : State) (t : Nat) : (publish t s).cmdArmed = s.cmdArmed := rfl
@[simp] theorem publish_tainted (s : State) (t : Nat) : (publish t s).tainted = s.tainted := rfl
@[simp] theorem publish_seqEn (s : State) (t : Nat) : (publish t s).seqEn = s.seqEn := rfl
@[simp] theorem publish_seqPc (s : State) (t : Nat) : (publish t s).seqPc = s.seqPc := rfl
@[simp] theorem publish_rxq (s : State) (t : Nat) : (publish t s).rxq = s.rxq := rfl
@[simp] theorem publish_xferQ (s : State) (t : Nat) : (publish t s).xferQ = s.xferQ := rfl
@[simp] theorem publish_setupDone (s : State) (t : Nat) : (publish t s).setupDone = s.setupDone := rfl
@[simp] theorem publish_outputs (s : State) (t : Nat) : (publish t s).outputs = s.outputs := rfl
@[simp] theorem publish_hostRx (s : State) (t : Nat) : (publish t s).hostRx = s.hostRx := rfl
@[simp] theorem publish_fgDone (s : State) (t : Nat) : (publish t s).fgDone = s.fgDone := rfl
@[simp] theorem publish_fgNext (s : State) (t : Nat) : (publish t s).fgNext = s.fgNext := rfl
@[simp] theorem publish_initPending (s : State) (t : Nat) : (publish t s).initPending = s.initPending := rfl
@[simp] theorem publish_cmdPending (s : State) (t : Nat) : (publish t s).cmdPending = s.cmdPending := rfl
@[simp] theorem publish_moves (s : State) (t : Nat) : (publish t s).moves = s.moves := rfl
@[simp] theorem publish_draws (s : State) (t : Nat) : (publish t s).draws = s.draws := rfl
@[simp] theorem publish_epoch (s : State) (t : Nat) : (publish t s).epoch = s.epoch := rfl

/-! The race's marks change `tainted` and the pending transfers' taints only. -/

@[simp] theorem taintCheck_cfg (s : State) (t : Nat) : (taintCheck t s).cfg = s.cfg := rfl
@[simp] theorem taintCheck_front (s : State) (t : Nat) : (taintCheck t s).front = s.front := rfl
@[simp] theorem taintCheck_buf0 (s : State) (t : Nat) : (taintCheck t s).buf0 = s.buf0 := rfl
@[simp] theorem taintCheck_buf1 (s : State) (t : Nat) : (taintCheck t s).buf1 = s.buf1 := rfl
@[simp] theorem taintCheck_ceDst (s : State) (t : Nat) : (taintCheck t s).ceDst = s.ceDst := rfl
@[simp] theorem taintCheck_ceIdx (s : State) (t : Nat) : (taintCheck t s).ceIdx = s.ceIdx := rfl
@[simp] theorem taintCheck_ceBusy (s : State) (t : Nat) : (taintCheck t s).ceBusy = s.ceBusy := rfl
@[simp] theorem taintCheck_capStarted (s : State) (t : Nat) : (taintCheck t s).capStarted = s.capStarted := rfl
@[simp] theorem taintCheck_ring (s : State) (t : Nat) : (taintCheck t s).ring = s.ring := rfl
@[simp] theorem taintCheck_cursor (s : State) (t : Nat) : (taintCheck t s).cursor = s.cursor := rfl
@[simp] theorem taintCheck_valid (s : State) (t : Nat) : (taintCheck t s).valid = s.valid := rfl
@[simp] theorem taintCheck_pubCount (s : State) (t : Nat) : (taintCheck t s).pubCount = s.pubCount := rfl
@[simp] theorem taintCheck_credit (s : State) (t : Nat) : (taintCheck t s).credit = s.credit := rfl
@[simp] theorem taintCheck_inFlight (s : State) (t : Nat) : (taintCheck t s).inFlight = s.inFlight := rfl
@[simp] theorem taintCheck_blk (s : State) (t : Nat) : (taintCheck t s).blk = s.blk := rfl
@[simp] theorem taintCheck_offset (s : State) (t : Nat) : (taintCheck t s).offset = s.offset := rfl
@[simp] theorem taintCheck_lastSent (s : State) (t : Nat) : (taintCheck t s).lastSent = s.lastSent := rfl
@[simp] theorem taintCheck_cmdArmed (s : State) (t : Nat) : (taintCheck t s).cmdArmed = s.cmdArmed := rfl
@[simp] theorem taintCheck_seqEn (s : State) (t : Nat) : (taintCheck t s).seqEn = s.seqEn := rfl
@[simp] theorem taintCheck_seqPc (s : State) (t : Nat) : (taintCheck t s).seqPc = s.seqPc := rfl
@[simp] theorem taintCheck_rxq (s : State) (t : Nat) : (taintCheck t s).rxq = s.rxq := rfl
@[simp] theorem taintCheck_setupDone (s : State) (t : Nat) : (taintCheck t s).setupDone = s.setupDone := rfl
@[simp] theorem taintCheck_outputs (s : State) (t : Nat) : (taintCheck t s).outputs = s.outputs := rfl
@[simp] theorem taintCheck_hostRx (s : State) (t : Nat) : (taintCheck t s).hostRx = s.hostRx := rfl
@[simp] theorem taintCheck_fgDone (s : State) (t : Nat) : (taintCheck t s).fgDone = s.fgDone := rfl
@[simp] theorem taintCheck_fgNext (s : State) (t : Nat) : (taintCheck t s).fgNext = s.fgNext := rfl
@[simp] theorem taintCheck_initPending (s : State) (t : Nat) : (taintCheck t s).initPending = s.initPending := rfl
@[simp] theorem taintCheck_cmdPending (s : State) (t : Nat) : (taintCheck t s).cmdPending = s.cmdPending := rfl
@[simp] theorem taintCheck_moves (s : State) (t : Nat) : (taintCheck t s).moves = s.moves := rfl
@[simp] theorem taintCheck_draws (s : State) (t : Nat) : (taintCheck t s).draws = s.draws := rfl
@[simp] theorem taintCheck_epoch (s : State) (t : Nat) : (taintCheck t s).epoch = s.epoch := rfl

/-! A completion changes the pending transfers, the host's record and the draw counter only. -/

@[simp] theorem completeTransfer_cfg (s : State) : (completeTransfer s).cfg = s.cfg := by unfold completeTransfer; split <;> rfl
@[simp] theorem completeTransfer_front (s : State) : (completeTransfer s).front = s.front := by unfold completeTransfer; split <;> rfl
@[simp] theorem completeTransfer_buf0 (s : State) : (completeTransfer s).buf0 = s.buf0 := by unfold completeTransfer; split <;> rfl
@[simp] theorem completeTransfer_buf1 (s : State) : (completeTransfer s).buf1 = s.buf1 := by unfold completeTransfer; split <;> rfl
@[simp] theorem completeTransfer_ceDst (s : State) : (completeTransfer s).ceDst = s.ceDst := by unfold completeTransfer; split <;> rfl
@[simp] theorem completeTransfer_ceIdx (s : State) : (completeTransfer s).ceIdx = s.ceIdx := by unfold completeTransfer; split <;> rfl
@[simp] theorem completeTransfer_ceBusy (s : State) : (completeTransfer s).ceBusy = s.ceBusy := by unfold completeTransfer; split <;> rfl
@[simp] theorem completeTransfer_capStarted (s : State) : (completeTransfer s).capStarted = s.capStarted := by unfold completeTransfer; split <;> rfl
@[simp] theorem completeTransfer_ring (s : State) : (completeTransfer s).ring = s.ring := by unfold completeTransfer; split <;> rfl
@[simp] theorem completeTransfer_cursor (s : State) : (completeTransfer s).cursor = s.cursor := by unfold completeTransfer; split <;> rfl
@[simp] theorem completeTransfer_valid (s : State) : (completeTransfer s).valid = s.valid := by unfold completeTransfer; split <;> rfl
@[simp] theorem completeTransfer_pubCount (s : State) : (completeTransfer s).pubCount = s.pubCount := by unfold completeTransfer; split <;> rfl
@[simp] theorem completeTransfer_credit (s : State) : (completeTransfer s).credit = s.credit := by unfold completeTransfer; split <;> rfl
@[simp] theorem completeTransfer_inFlight (s : State) : (completeTransfer s).inFlight = s.inFlight := by unfold completeTransfer; split <;> rfl
@[simp] theorem completeTransfer_blk (s : State) : (completeTransfer s).blk = s.blk := by unfold completeTransfer; split <;> rfl
@[simp] theorem completeTransfer_offset (s : State) : (completeTransfer s).offset = s.offset := by unfold completeTransfer; split <;> rfl
@[simp] theorem completeTransfer_lastSent (s : State) : (completeTransfer s).lastSent = s.lastSent := by unfold completeTransfer; split <;> rfl
@[simp] theorem completeTransfer_cmdArmed (s : State) : (completeTransfer s).cmdArmed = s.cmdArmed := by unfold completeTransfer; split <;> rfl
@[simp] theorem completeTransfer_tainted (s : State) : (completeTransfer s).tainted = s.tainted := by unfold completeTransfer; split <;> rfl
@[simp] theorem completeTransfer_seqEn (s : State) : (completeTransfer s).seqEn = s.seqEn := by unfold completeTransfer; split <;> rfl
@[simp] theorem completeTransfer_seqPc (s : State) : (completeTransfer s).seqPc = s.seqPc := by unfold completeTransfer; split <;> rfl
@[simp] theorem completeTransfer_rxq (s : State) : (completeTransfer s).rxq = s.rxq := by unfold completeTransfer; split <;> rfl
@[simp] theorem completeTransfer_setupDone (s : State) : (completeTransfer s).setupDone = s.setupDone := by unfold completeTransfer; split <;> rfl
@[simp] theorem completeTransfer_outputs (s : State) : (completeTransfer s).outputs = s.outputs := by unfold completeTransfer; split <;> rfl
@[simp] theorem completeTransfer_fgDone (s : State) : (completeTransfer s).fgDone = s.fgDone := by unfold completeTransfer; split <;> rfl
@[simp] theorem completeTransfer_fgNext (s : State) : (completeTransfer s).fgNext = s.fgNext := by unfold completeTransfer; split <;> rfl
@[simp] theorem completeTransfer_initPending (s : State) : (completeTransfer s).initPending = s.initPending := by unfold completeTransfer; split <;> rfl
@[simp] theorem completeTransfer_cmdPending (s : State) : (completeTransfer s).cmdPending = s.cmdPending := by unfold completeTransfer; split <;> rfl
@[simp] theorem completeTransfer_moves (s : State) : (completeTransfer s).moves = s.moves := by unfold completeTransfer; split <;> rfl
@[simp] theorem completeTransfer_epoch (s : State) : (completeTransfer s).epoch = s.epoch := by unfold completeTransfer; split <;> rfl

/-! Issuing a chunk changes the pending transfers, the output record and the draw counter only. -/

@[simp] theorem sendChunk_cfg (s : State) : (sendChunk s).cfg = s.cfg := rfl
@[simp] theorem sendChunk_front (s : State) : (sendChunk s).front = s.front := rfl
@[simp] theorem sendChunk_buf0 (s : State) : (sendChunk s).buf0 = s.buf0 := rfl
@[simp] theorem sendChunk_buf1 (s : State) : (sendChunk s).buf1 = s.buf1 := rfl
@[simp] theorem sendChunk_ceDst (s : State) : (sendChunk s).ceDst = s.ceDst := rfl
@[simp] theorem sendChunk_ceIdx (s : State) : (sendChunk s).ceIdx = s.ceIdx := rfl
@[simp] theorem sendChunk_ceBusy (s : State) : (sendChunk s).ceBusy = s.ceBusy := rfl
@[simp] theorem sendChunk_capStarted (s : State) : (sendChunk s).capStarted = s.capStarted := rfl
@[simp] theorem sendChunk_ring (s : State) : (sendChunk s).ring = s.ring := rfl
@[simp] theorem sendChunk_cursor (s : State) : (sendChunk s).cursor = s.cursor := rfl
@[simp] theorem sendChunk_valid (s : State) : (sendChunk s).valid = s.valid := rfl
@[simp] theorem sendChunk_pubCount (s : State) : (sendChunk s).pubCount = s.pubCount := rfl
@[simp] theorem sendChunk_credit (s : State) : (sendChunk s).credit = s.credit := rfl
@[simp] theorem sendChunk_inFlight (s : State) : (sendChunk s).inFlight = s.inFlight := rfl
@[simp] theorem sendChunk_blk (s : State) : (sendChunk s).blk = s.blk := rfl
@[simp] theorem sendChunk_offset (s : State) : (sendChunk s).offset = s.offset := rfl
@[simp] theorem sendChunk_lastSent (s : State) : (sendChunk s).lastSent = s.lastSent := rfl
@[simp] theorem sendChunk_cmdArmed (s : State) : (sendChunk s).cmdArmed = s.cmdArmed := rfl
@[simp] theorem sendChunk_tainted (s : State) : (sendChunk s).tainted = s.tainted := rfl
@[simp] theorem sendChunk_seqEn (s : State) : (sendChunk s).seqEn = s.seqEn := rfl
@[simp] theorem sendChunk_seqPc (s : State) : (sendChunk s).seqPc = s.seqPc := rfl
@[simp] theorem sendChunk_rxq (s : State) : (sendChunk s).rxq = s.rxq := rfl
@[simp] theorem sendChunk_setupDone (s : State) : (sendChunk s).setupDone = s.setupDone := rfl
@[simp] theorem sendChunk_hostRx (s : State) : (sendChunk s).hostRx = s.hostRx := rfl
@[simp] theorem sendChunk_fgDone (s : State) : (sendChunk s).fgDone = s.fgDone := rfl
@[simp] theorem sendChunk_fgNext (s : State) : (sendChunk s).fgNext = s.fgNext := rfl
@[simp] theorem sendChunk_initPending (s : State) : (sendChunk s).initPending = s.initPending := rfl
@[simp] theorem sendChunk_cmdPending (s : State) : (sendChunk s).cmdPending = s.cmdPending := rfl
@[simp] theorem sendChunk_moves (s : State) : (sendChunk s).moves = s.moves := rfl
@[simp] theorem sendChunk_epoch (s : State) : (sendChunk s).epoch = s.epoch := rfl

/-! An acknowledgement of the block in flight changes its offset and flag, the pending transfers, the output record and the draws. -/

@[simp] theorem advanceSend_cfg (s : State) : (advanceSend s).cfg = s.cfg := by unfold advanceSend; dsimp only; split <;> rfl
@[simp] theorem advanceSend_front (s : State) : (advanceSend s).front = s.front := by unfold advanceSend; dsimp only; split <;> rfl
@[simp] theorem advanceSend_buf0 (s : State) : (advanceSend s).buf0 = s.buf0 := by unfold advanceSend; dsimp only; split <;> rfl
@[simp] theorem advanceSend_buf1 (s : State) : (advanceSend s).buf1 = s.buf1 := by unfold advanceSend; dsimp only; split <;> rfl
@[simp] theorem advanceSend_ceDst (s : State) : (advanceSend s).ceDst = s.ceDst := by unfold advanceSend; dsimp only; split <;> rfl
@[simp] theorem advanceSend_ceIdx (s : State) : (advanceSend s).ceIdx = s.ceIdx := by unfold advanceSend; dsimp only; split <;> rfl
@[simp] theorem advanceSend_ceBusy (s : State) : (advanceSend s).ceBusy = s.ceBusy := by unfold advanceSend; dsimp only; split <;> rfl
@[simp] theorem advanceSend_capStarted (s : State) : (advanceSend s).capStarted = s.capStarted := by unfold advanceSend; dsimp only; split <;> rfl
@[simp] theorem advanceSend_ring (s : State) : (advanceSend s).ring = s.ring := by unfold advanceSend; dsimp only; split <;> rfl
@[simp] theorem advanceSend_cursor (s : State) : (advanceSend s).cursor = s.cursor := by unfold advanceSend; dsimp only; split <;> rfl
@[simp] theorem advanceSend_valid (s : State) : (advanceSend s).valid = s.valid := by unfold advanceSend; dsimp only; split <;> rfl
@[simp] theorem advanceSend_pubCount (s : State) : (advanceSend s).pubCount = s.pubCount := by unfold advanceSend; dsimp only; split <;> rfl
@[simp] theorem advanceSend_credit (s : State) : (advanceSend s).credit = s.credit := by unfold advanceSend; dsimp only; split <;> rfl
@[simp] theorem advanceSend_blk (s : State) : (advanceSend s).blk = s.blk := by unfold advanceSend; dsimp only; split <;> rfl
@[simp] theorem advanceSend_lastSent (s : State) : (advanceSend s).lastSent = s.lastSent := by unfold advanceSend; dsimp only; split <;> rfl
@[simp] theorem advanceSend_cmdArmed (s : State) : (advanceSend s).cmdArmed = s.cmdArmed := by unfold advanceSend; dsimp only; split <;> rfl
@[simp] theorem advanceSend_tainted (s : State) : (advanceSend s).tainted = s.tainted := by unfold advanceSend; dsimp only; split <;> rfl
@[simp] theorem advanceSend_seqEn (s : State) : (advanceSend s).seqEn = s.seqEn := by unfold advanceSend; dsimp only; split <;> rfl
@[simp] theorem advanceSend_seqPc (s : State) : (advanceSend s).seqPc = s.seqPc := by unfold advanceSend; dsimp only; split <;> rfl
@[simp] theorem advanceSend_rxq (s : State) : (advanceSend s).rxq = s.rxq := by unfold advanceSend; dsimp only; split <;> rfl
@[simp] theorem advanceSend_setupDone (s : State) : (advanceSend s).setupDone = s.setupDone := by unfold advanceSend; dsimp only; split <;> rfl
@[simp] theorem advanceSend_hostRx (s : State) : (advanceSend s).hostRx = s.hostRx := by unfold advanceSend; dsimp only; split <;> rfl
@[simp] theorem advanceSend_fgDone (s : State) : (advanceSend s).fgDone = s.fgDone := by unfold advanceSend; dsimp only; split <;> rfl
@[simp] theorem advanceSend_fgNext (s : State) : (advanceSend s).fgNext = s.fgNext := by unfold advanceSend; dsimp only; split <;> rfl
@[simp] theorem advanceSend_initPending (s : State) : (advanceSend s).initPending = s.initPending := by unfold advanceSend; dsimp only; split <;> rfl
@[simp] theorem advanceSend_cmdPending (s : State) : (advanceSend s).cmdPending = s.cmdPending := by unfold advanceSend; dsimp only; split <;> rfl
@[simp] theorem advanceSend_moves (s : State) : (advanceSend s).moves = s.moves := by unfold advanceSend; dsimp only; split <;> rfl
@[simp] theorem advanceSend_epoch (s : State) : (advanceSend s).epoch = s.epoch := by unfold advanceSend; dsimp only; split <;> rfl

/-! CE_COPY's effect changes the buffers, the queue, `ce_idx` and `ce_busy` only. -/

@[simp] theorem copyWord_cfg (s : State) : (copyWord s).cfg = s.cfg := by unfold copyWord; split <;> first | rfl | simp [State.writeBuf]
@[simp] theorem copyWord_front (s : State) : (copyWord s).front = s.front := by unfold copyWord; split <;> first | rfl | simp [State.writeBuf]
@[simp] theorem copyWord_ceDst (s : State) : (copyWord s).ceDst = s.ceDst := by unfold copyWord; split <;> first | rfl | simp [State.writeBuf]
@[simp] theorem copyWord_capStarted (s : State) : (copyWord s).capStarted = s.capStarted := by unfold copyWord; split <;> first | rfl | simp [State.writeBuf]
@[simp] theorem copyWord_ring (s : State) : (copyWord s).ring = s.ring := by unfold copyWord; split <;> first | rfl | simp [State.writeBuf]
@[simp] theorem copyWord_cursor (s : State) : (copyWord s).cursor = s.cursor := by unfold copyWord; split <;> first | rfl | simp [State.writeBuf]
@[simp] theorem copyWord_valid (s : State) : (copyWord s).valid = s.valid := by unfold copyWord; split <;> first | rfl | simp [State.writeBuf]
@[simp] theorem copyWord_pubCount (s : State) : (copyWord s).pubCount = s.pubCount := by unfold copyWord; split <;> first | rfl | simp [State.writeBuf]
@[simp] theorem copyWord_credit (s : State) : (copyWord s).credit = s.credit := by unfold copyWord; split <;> first | rfl | simp [State.writeBuf]
@[simp] theorem copyWord_inFlight (s : State) : (copyWord s).inFlight = s.inFlight := by unfold copyWord; split <;> first | rfl | simp [State.writeBuf]
@[simp] theorem copyWord_blk (s : State) : (copyWord s).blk = s.blk := by unfold copyWord; split <;> first | rfl | simp [State.writeBuf]
@[simp] theorem copyWord_offset (s : State) : (copyWord s).offset = s.offset := by unfold copyWord; split <;> first | rfl | simp [State.writeBuf]
@[simp] theorem copyWord_lastSent (s : State) : (copyWord s).lastSent = s.lastSent := by unfold copyWord; split <;> first | rfl | simp [State.writeBuf]
@[simp] theorem copyWord_cmdArmed (s : State) : (copyWord s).cmdArmed = s.cmdArmed := by unfold copyWord; split <;> first | rfl | simp [State.writeBuf]
@[simp] theorem copyWord_tainted (s : State) : (copyWord s).tainted = s.tainted := by unfold copyWord; split <;> first | rfl | simp [State.writeBuf]
@[simp] theorem copyWord_seqEn (s : State) : (copyWord s).seqEn = s.seqEn := by unfold copyWord; split <;> first | rfl | simp [State.writeBuf]
@[simp] theorem copyWord_seqPc (s : State) : (copyWord s).seqPc = s.seqPc := by unfold copyWord; split <;> first | rfl | simp [State.writeBuf]
@[simp] theorem copyWord_xferQ (s : State) : (copyWord s).xferQ = s.xferQ := by unfold copyWord; split <;> first | rfl | simp [State.writeBuf]
@[simp] theorem copyWord_setupDone (s : State) : (copyWord s).setupDone = s.setupDone := by unfold copyWord; split <;> first | rfl | simp [State.writeBuf]
@[simp] theorem copyWord_outputs (s : State) : (copyWord s).outputs = s.outputs := by unfold copyWord; split <;> first | rfl | simp [State.writeBuf]
@[simp] theorem copyWord_hostRx (s : State) : (copyWord s).hostRx = s.hostRx := by unfold copyWord; split <;> first | rfl | simp [State.writeBuf]
@[simp] theorem copyWord_fgDone (s : State) : (copyWord s).fgDone = s.fgDone := by unfold copyWord; split <;> first | rfl | simp [State.writeBuf]
@[simp] theorem copyWord_fgNext (s : State) : (copyWord s).fgNext = s.fgNext := by unfold copyWord; split <;> first | rfl | simp [State.writeBuf]
@[simp] theorem copyWord_initPending (s : State) : (copyWord s).initPending = s.initPending := by unfold copyWord; split <;> first | rfl | simp [State.writeBuf]
@[simp] theorem copyWord_cmdPending (s : State) : (copyWord s).cmdPending = s.cmdPending := by unfold copyWord; split <;> first | rfl | simp [State.writeBuf]
@[simp] theorem copyWord_moves (s : State) : (copyWord s).moves = s.moves := by unfold copyWord; split <;> first | rfl | simp [State.writeBuf]
@[simp] theorem copyWord_draws (s : State) : (copyWord s).draws = s.draws := by unfold copyWord; split <;> first | rfl | simp [State.writeBuf]
@[simp] theorem copyWord_epoch (s : State) : (copyWord s).epoch = s.epoch := by unfold copyWord; split <;> first | rfl | simp [State.writeBuf]

/-! DECODE's effect changes the ring, the publish and the race's marks only. -/

@[simp] theorem decodeBlock_cfg (s : State) : (decodeBlock s).cfg = s.cfg := rfl
@[simp] theorem decodeBlock_front (s : State) : (decodeBlock s).front = s.front := rfl
@[simp] theorem decodeBlock_buf0 (s : State) : (decodeBlock s).buf0 = s.buf0 := rfl
@[simp] theorem decodeBlock_buf1 (s : State) : (decodeBlock s).buf1 = s.buf1 := rfl
@[simp] theorem decodeBlock_ceDst (s : State) : (decodeBlock s).ceDst = s.ceDst := rfl
@[simp] theorem decodeBlock_ceIdx (s : State) : (decodeBlock s).ceIdx = s.ceIdx := rfl
@[simp] theorem decodeBlock_ceBusy (s : State) : (decodeBlock s).ceBusy = s.ceBusy := rfl
@[simp] theorem decodeBlock_capStarted (s : State) : (decodeBlock s).capStarted = s.capStarted := rfl
@[simp] theorem decodeBlock_credit (s : State) : (decodeBlock s).credit = s.credit := rfl
@[simp] theorem decodeBlock_inFlight (s : State) : (decodeBlock s).inFlight = s.inFlight := rfl
@[simp] theorem decodeBlock_blk (s : State) : (decodeBlock s).blk = s.blk := rfl
@[simp] theorem decodeBlock_offset (s : State) : (decodeBlock s).offset = s.offset := rfl
@[simp] theorem decodeBlock_lastSent (s : State) : (decodeBlock s).lastSent = s.lastSent := rfl
@[simp] theorem decodeBlock_cmdArmed (s : State) : (decodeBlock s).cmdArmed = s.cmdArmed := rfl
@[simp] theorem decodeBlock_seqEn (s : State) : (decodeBlock s).seqEn = s.seqEn := rfl
@[simp] theorem decodeBlock_seqPc (s : State) : (decodeBlock s).seqPc = s.seqPc := rfl
@[simp] theorem decodeBlock_rxq (s : State) : (decodeBlock s).rxq = s.rxq := rfl
@[simp] theorem decodeBlock_setupDone (s : State) : (decodeBlock s).setupDone = s.setupDone := rfl
@[simp] theorem decodeBlock_outputs (s : State) : (decodeBlock s).outputs = s.outputs := rfl
@[simp] theorem decodeBlock_hostRx (s : State) : (decodeBlock s).hostRx = s.hostRx := rfl
@[simp] theorem decodeBlock_fgDone (s : State) : (decodeBlock s).fgDone = s.fgDone := rfl
@[simp] theorem decodeBlock_fgNext (s : State) : (decodeBlock s).fgNext = s.fgNext := rfl
@[simp] theorem decodeBlock_initPending (s : State) : (decodeBlock s).initPending = s.initPending := rfl
@[simp] theorem decodeBlock_cmdPending (s : State) : (decodeBlock s).cmdPending = s.cmdPending := rfl
@[simp] theorem decodeBlock_moves (s : State) : (decodeBlock s).moves = s.moves := rfl
@[simp] theorem decodeBlock_draws (s : State) : (decodeBlock s).draws = s.draws := rfl
@[simp] theorem decodeBlock_epoch (s : State) : (decodeBlock s).epoch = s.epoch := rfl

/-! BEGIN_SEND's effect changes the session, the pending transfers, the output record and the draws only. -/

@[simp] theorem beginSend_cfg (s : State) : (beginSend s).cfg = s.cfg := rfl
@[simp] theorem beginSend_front (s : State) : (beginSend s).front = s.front := rfl
@[simp] theorem beginSend_buf0 (s : State) : (beginSend s).buf0 = s.buf0 := rfl
@[simp] theorem beginSend_buf1 (s : State) : (beginSend s).buf1 = s.buf1 := rfl
@[simp] theorem beginSend_ceDst (s : State) : (beginSend s).ceDst = s.ceDst := rfl
@[simp] theorem beginSend_ceIdx (s : State) : (beginSend s).ceIdx = s.ceIdx := rfl
@[simp] theorem beginSend_ceBusy (s : State) : (beginSend s).ceBusy = s.ceBusy := rfl
@[simp] theorem beginSend_capStarted (s : State) : (beginSend s).capStarted = s.capStarted := rfl
@[simp] theorem beginSend_ring (s : State) : (beginSend s).ring = s.ring := rfl
@[simp] theorem beginSend_cursor (s : State) : (beginSend s).cursor = s.cursor := rfl
@[simp] theorem beginSend_valid (s : State) : (beginSend s).valid = s.valid := rfl
@[simp] theorem beginSend_pubCount (s : State) : (beginSend s).pubCount = s.pubCount := rfl
@[simp] theorem beginSend_cmdArmed (s : State) : (beginSend s).cmdArmed = s.cmdArmed := rfl
@[simp] theorem beginSend_seqEn (s : State) : (beginSend s).seqEn = s.seqEn := rfl
@[simp] theorem beginSend_seqPc (s : State) : (beginSend s).seqPc = s.seqPc := rfl
@[simp] theorem beginSend_rxq (s : State) : (beginSend s).rxq = s.rxq := rfl
@[simp] theorem beginSend_setupDone (s : State) : (beginSend s).setupDone = s.setupDone := rfl
@[simp] theorem beginSend_hostRx (s : State) : (beginSend s).hostRx = s.hostRx := rfl
@[simp] theorem beginSend_fgDone (s : State) : (beginSend s).fgDone = s.fgDone := rfl
@[simp] theorem beginSend_fgNext (s : State) : (beginSend s).fgNext = s.fgNext := rfl
@[simp] theorem beginSend_initPending (s : State) : (beginSend s).initPending = s.initPending := rfl
@[simp] theorem beginSend_cmdPending (s : State) : (beginSend s).cmdPending = s.cmdPending := rfl
@[simp] theorem beginSend_moves (s : State) : (beginSend s).moves = s.moves := rfl
@[simp] theorem beginSend_epoch (s : State) : (beginSend s).epoch = s.epoch := rfl

/-! START_CAPTURE's effect changes the capture side and the output record only. -/

@[simp] theorem startCapture_cfg (s : State) : (startCapture s).cfg = s.cfg := rfl
@[simp] theorem startCapture_buf0 (s : State) : (startCapture s).buf0 = s.buf0 := rfl
@[simp] theorem startCapture_buf1 (s : State) : (startCapture s).buf1 = s.buf1 := rfl
@[simp] theorem startCapture_ring (s : State) : (startCapture s).ring = s.ring := rfl
@[simp] theorem startCapture_cursor (s : State) : (startCapture s).cursor = s.cursor := rfl
@[simp] theorem startCapture_valid (s : State) : (startCapture s).valid = s.valid := rfl
@[simp] theorem startCapture_pubCount (s : State) : (startCapture s).pubCount = s.pubCount := rfl
@[simp] theorem startCapture_credit (s : State) : (startCapture s).credit = s.credit := rfl
@[simp] theorem startCapture_inFlight (s : State) : (startCapture s).inFlight = s.inFlight := rfl
@[simp] theorem startCapture_blk (s : State) : (startCapture s).blk = s.blk := rfl
@[simp] theorem startCapture_offset (s : State) : (startCapture s).offset = s.offset := rfl
@[simp] theorem startCapture_lastSent (s : State) : (startCapture s).lastSent = s.lastSent := rfl
@[simp] theorem startCapture_cmdArmed (s : State) : (startCapture s).cmdArmed = s.cmdArmed := rfl
@[simp] theorem startCapture_tainted (s : State) : (startCapture s).tainted = s.tainted := rfl
@[simp] theorem startCapture_xferQ (s : State) : (startCapture s).xferQ = s.xferQ := rfl
@[simp] theorem startCapture_setupDone (s : State) : (startCapture s).setupDone = s.setupDone := rfl
@[simp] theorem startCapture_hostRx (s : State) : (startCapture s).hostRx = s.hostRx := rfl
@[simp] theorem startCapture_fgDone (s : State) : (startCapture s).fgDone = s.fgDone := rfl
@[simp] theorem startCapture_fgNext (s : State) : (startCapture s).fgNext = s.fgNext := rfl
@[simp] theorem startCapture_initPending (s : State) : (startCapture s).initPending = s.initPending := rfl
@[simp] theorem startCapture_cmdPending (s : State) : (startCapture s).cmdPending = s.cmdPending := rfl
@[simp] theorem startCapture_moves (s : State) : (startCapture s).moves = s.moves := rfl
@[simp] theorem startCapture_draws (s : State) : (startCapture s).draws = s.draws := rfl
@[simp] theorem startCapture_epoch (s : State) : (startCapture s).epoch = s.epoch := rfl

/-! LINK_INIT's effect changes the session, the pending transfers and the output record only. -/

@[simp] theorem linkInit_cfg (s : State) : (linkInit s).cfg = s.cfg := rfl
@[simp] theorem linkInit_front (s : State) : (linkInit s).front = s.front := rfl
@[simp] theorem linkInit_buf0 (s : State) : (linkInit s).buf0 = s.buf0 := rfl
@[simp] theorem linkInit_buf1 (s : State) : (linkInit s).buf1 = s.buf1 := rfl
@[simp] theorem linkInit_ceDst (s : State) : (linkInit s).ceDst = s.ceDst := rfl
@[simp] theorem linkInit_ceIdx (s : State) : (linkInit s).ceIdx = s.ceIdx := rfl
@[simp] theorem linkInit_ceBusy (s : State) : (linkInit s).ceBusy = s.ceBusy := rfl
@[simp] theorem linkInit_capStarted (s : State) : (linkInit s).capStarted = s.capStarted := rfl
@[simp] theorem linkInit_ring (s : State) : (linkInit s).ring = s.ring := rfl
@[simp] theorem linkInit_cursor (s : State) : (linkInit s).cursor = s.cursor := rfl
@[simp] theorem linkInit_valid (s : State) : (linkInit s).valid = s.valid := rfl
@[simp] theorem linkInit_pubCount (s : State) : (linkInit s).pubCount = s.pubCount := rfl
@[simp] theorem linkInit_blk (s : State) : (linkInit s).blk = s.blk := rfl
@[simp] theorem linkInit_seqEn (s : State) : (linkInit s).seqEn = s.seqEn := rfl
@[simp] theorem linkInit_seqPc (s : State) : (linkInit s).seqPc = s.seqPc := rfl
@[simp] theorem linkInit_rxq (s : State) : (linkInit s).rxq = s.rxq := rfl
@[simp] theorem linkInit_setupDone (s : State) : (linkInit s).setupDone = s.setupDone := rfl
@[simp] theorem linkInit_hostRx (s : State) : (linkInit s).hostRx = s.hostRx := rfl
@[simp] theorem linkInit_fgDone (s : State) : (linkInit s).fgDone = s.fgDone := rfl
@[simp] theorem linkInit_fgNext (s : State) : (linkInit s).fgNext = s.fgNext := rfl
@[simp] theorem linkInit_initPending (s : State) : (linkInit s).initPending = s.initPending := rfl
@[simp] theorem linkInit_cmdPending (s : State) : (linkInit s).cmdPending = s.cmdPending := rfl
@[simp] theorem linkInit_moves (s : State) : (linkInit s).moves = s.moves := rfl
@[simp] theorem linkInit_draws (s : State) : (linkInit s).draws = s.draws := rfl
@[simp] theorem linkInit_epoch (s : State) : (linkInit s).epoch = s.epoch := rfl

/-! Re-arming changes `cmd_armed` and the output record only. -/

@[simp] theorem rearm_cfg (s : State) : (rearm s).cfg = s.cfg := rfl
@[simp] theorem rearm_front (s : State) : (rearm s).front = s.front := rfl
@[simp] theorem rearm_buf0 (s : State) : (rearm s).buf0 = s.buf0 := rfl
@[simp] theorem rearm_buf1 (s : State) : (rearm s).buf1 = s.buf1 := rfl
@[simp] theorem rearm_ceDst (s : State) : (rearm s).ceDst = s.ceDst := rfl
@[simp] theorem rearm_ceIdx (s : State) : (rearm s).ceIdx = s.ceIdx := rfl
@[simp] theorem rearm_ceBusy (s : State) : (rearm s).ceBusy = s.ceBusy := rfl
@[simp] theorem rearm_capStarted (s : State) : (rearm s).capStarted = s.capStarted := rfl
@[simp] theorem rearm_ring (s : State) : (rearm s).ring = s.ring := rfl
@[simp] theorem rearm_cursor (s : State) : (rearm s).cursor = s.cursor := rfl
@[simp] theorem rearm_valid (s : State) : (rearm s).valid = s.valid := rfl
@[simp] theorem rearm_pubCount (s : State) : (rearm s).pubCount = s.pubCount := rfl
@[simp] theorem rearm_credit (s : State) : (rearm s).credit = s.credit := rfl
@[simp] theorem rearm_inFlight (s : State) : (rearm s).inFlight = s.inFlight := rfl
@[simp] theorem rearm_blk (s : State) : (rearm s).blk = s.blk := rfl
@[simp] theorem rearm_offset (s : State) : (rearm s).offset = s.offset := rfl
@[simp] theorem rearm_lastSent (s : State) : (rearm s).lastSent = s.lastSent := rfl
@[simp] theorem rearm_tainted (s : State) : (rearm s).tainted = s.tainted := rfl
@[simp] theorem rearm_seqEn (s : State) : (rearm s).seqEn = s.seqEn := rfl
@[simp] theorem rearm_seqPc (s : State) : (rearm s).seqPc = s.seqPc := rfl
@[simp] theorem rearm_rxq (s : State) : (rearm s).rxq = s.rxq := rfl
@[simp] theorem rearm_xferQ (s : State) : (rearm s).xferQ = s.xferQ := rfl
@[simp] theorem rearm_setupDone (s : State) : (rearm s).setupDone = s.setupDone := rfl
@[simp] theorem rearm_hostRx (s : State) : (rearm s).hostRx = s.hostRx := rfl
@[simp] theorem rearm_fgDone (s : State) : (rearm s).fgDone = s.fgDone := rfl
@[simp] theorem rearm_fgNext (s : State) : (rearm s).fgNext = s.fgNext := rfl
@[simp] theorem rearm_initPending (s : State) : (rearm s).initPending = s.initPending := rfl
@[simp] theorem rearm_cmdPending (s : State) : (rearm s).cmdPending = s.cmdPending := rfl
@[simp] theorem rearm_moves (s : State) : (rearm s).moves = s.moves := rfl
@[simp] theorem rearm_draws (s : State) : (rearm s).draws = s.draws := rfl
@[simp] theorem rearm_epoch (s : State) : (rearm s).epoch = s.epoch := rfl

/-! A grant changes the credit and the send only. -/

@[simp] theorem grant_cfg (s : State) (n : Byte) : (grant n s).cfg = s.cfg := rfl
@[simp] theorem grant_front (s : State) (n : Byte) : (grant n s).front = s.front := rfl
@[simp] theorem grant_buf0 (s : State) (n : Byte) : (grant n s).buf0 = s.buf0 := rfl
@[simp] theorem grant_buf1 (s : State) (n : Byte) : (grant n s).buf1 = s.buf1 := rfl
@[simp] theorem grant_ceDst (s : State) (n : Byte) : (grant n s).ceDst = s.ceDst := rfl
@[simp] theorem grant_ceIdx (s : State) (n : Byte) : (grant n s).ceIdx = s.ceIdx := rfl
@[simp] theorem grant_ceBusy (s : State) (n : Byte) : (grant n s).ceBusy = s.ceBusy := rfl
@[simp] theorem grant_capStarted (s : State) (n : Byte) : (grant n s).capStarted = s.capStarted := rfl
@[simp] theorem grant_ring (s : State) (n : Byte) : (grant n s).ring = s.ring := rfl
@[simp] theorem grant_cursor (s : State) (n : Byte) : (grant n s).cursor = s.cursor := rfl
@[simp] theorem grant_valid (s : State) (n : Byte) : (grant n s).valid = s.valid := rfl
@[simp] theorem grant_pubCount (s : State) (n : Byte) : (grant n s).pubCount = s.pubCount := rfl
@[simp] theorem grant_blk (s : State) (n : Byte) : (grant n s).blk = s.blk := rfl
@[simp] theorem grant_lastSent (s : State) (n : Byte) : (grant n s).lastSent = s.lastSent := rfl
@[simp] theorem grant_cmdArmed (s : State) (n : Byte) : (grant n s).cmdArmed = s.cmdArmed := rfl
@[simp] theorem grant_seqEn (s : State) (n : Byte) : (grant n s).seqEn = s.seqEn := rfl
@[simp] theorem grant_seqPc (s : State) (n : Byte) : (grant n s).seqPc = s.seqPc := rfl
@[simp] theorem grant_rxq (s : State) (n : Byte) : (grant n s).rxq = s.rxq := rfl
@[simp] theorem grant_xferQ (s : State) (n : Byte) : (grant n s).xferQ = s.xferQ := rfl
@[simp] theorem grant_setupDone (s : State) (n : Byte) : (grant n s).setupDone = s.setupDone := rfl
@[simp] theorem grant_outputs (s : State) (n : Byte) : (grant n s).outputs = s.outputs := rfl
@[simp] theorem grant_hostRx (s : State) (n : Byte) : (grant n s).hostRx = s.hostRx := rfl
@[simp] theorem grant_fgDone (s : State) (n : Byte) : (grant n s).fgDone = s.fgDone := rfl
@[simp] theorem grant_fgNext (s : State) (n : Byte) : (grant n s).fgNext = s.fgNext := rfl
@[simp] theorem grant_initPending (s : State) (n : Byte) : (grant n s).initPending = s.initPending := rfl
@[simp] theorem grant_cmdPending (s : State) (n : Byte) : (grant n s).cmdPending = s.cmdPending := rfl
@[simp] theorem grant_moves (s : State) (n : Byte) : (grant n s).moves = s.moves := rfl
@[simp] theorem grant_draws (s : State) (n : Byte) : (grant n s).draws = s.draws := rfl
@[simp] theorem grant_epoch (s : State) (n : Byte) : (grant n s).epoch = s.epoch := rfl

/-! Taking a move changes the interleaving and the draw counter only. -/

@[simp] theorem takeMove_cfg (s : State) : s.takeMove.cfg = s.cfg := by unfold State.takeMove; split <;> rfl
@[simp] theorem takeMove_front (s : State) : s.takeMove.front = s.front := by unfold State.takeMove; split <;> rfl
@[simp] theorem takeMove_buf0 (s : State) : s.takeMove.buf0 = s.buf0 := by unfold State.takeMove; split <;> rfl
@[simp] theorem takeMove_buf1 (s : State) : s.takeMove.buf1 = s.buf1 := by unfold State.takeMove; split <;> rfl
@[simp] theorem takeMove_ceDst (s : State) : s.takeMove.ceDst = s.ceDst := by unfold State.takeMove; split <;> rfl
@[simp] theorem takeMove_ceIdx (s : State) : s.takeMove.ceIdx = s.ceIdx := by unfold State.takeMove; split <;> rfl
@[simp] theorem takeMove_ceBusy (s : State) : s.takeMove.ceBusy = s.ceBusy := by unfold State.takeMove; split <;> rfl
@[simp] theorem takeMove_capStarted (s : State) : s.takeMove.capStarted = s.capStarted := by unfold State.takeMove; split <;> rfl
@[simp] theorem takeMove_ring (s : State) : s.takeMove.ring = s.ring := by unfold State.takeMove; split <;> rfl
@[simp] theorem takeMove_cursor (s : State) : s.takeMove.cursor = s.cursor := by unfold State.takeMove; split <;> rfl
@[simp] theorem takeMove_valid (s : State) : s.takeMove.valid = s.valid := by unfold State.takeMove; split <;> rfl
@[simp] theorem takeMove_pubCount (s : State) : s.takeMove.pubCount = s.pubCount := by unfold State.takeMove; split <;> rfl
@[simp] theorem takeMove_credit (s : State) : s.takeMove.credit = s.credit := by unfold State.takeMove; split <;> rfl
@[simp] theorem takeMove_inFlight (s : State) : s.takeMove.inFlight = s.inFlight := by unfold State.takeMove; split <;> rfl
@[simp] theorem takeMove_blk (s : State) : s.takeMove.blk = s.blk := by unfold State.takeMove; split <;> rfl
@[simp] theorem takeMove_offset (s : State) : s.takeMove.offset = s.offset := by unfold State.takeMove; split <;> rfl
@[simp] theorem takeMove_lastSent (s : State) : s.takeMove.lastSent = s.lastSent := by unfold State.takeMove; split <;> rfl
@[simp] theorem takeMove_cmdArmed (s : State) : s.takeMove.cmdArmed = s.cmdArmed := by unfold State.takeMove; split <;> rfl
@[simp] theorem takeMove_tainted (s : State) : s.takeMove.tainted = s.tainted := by unfold State.takeMove; split <;> rfl
@[simp] theorem takeMove_seqEn (s : State) : s.takeMove.seqEn = s.seqEn := by unfold State.takeMove; split <;> rfl
@[simp] theorem takeMove_seqPc (s : State) : s.takeMove.seqPc = s.seqPc := by unfold State.takeMove; split <;> rfl
@[simp] theorem takeMove_rxq (s : State) : s.takeMove.rxq = s.rxq := by unfold State.takeMove; split <;> rfl
@[simp] theorem takeMove_xferQ (s : State) : s.takeMove.xferQ = s.xferQ := by unfold State.takeMove; split <;> rfl
@[simp] theorem takeMove_setupDone (s : State) : s.takeMove.setupDone = s.setupDone := by unfold State.takeMove; split <;> rfl
@[simp] theorem takeMove_outputs (s : State) : s.takeMove.outputs = s.outputs := by unfold State.takeMove; split <;> rfl
@[simp] theorem takeMove_hostRx (s : State) : s.takeMove.hostRx = s.hostRx := by unfold State.takeMove; split <;> rfl
@[simp] theorem takeMove_fgDone (s : State) : s.takeMove.fgDone = s.fgDone := by unfold State.takeMove; split <;> rfl
@[simp] theorem takeMove_fgNext (s : State) : s.takeMove.fgNext = s.fgNext := by unfold State.takeMove; split <;> rfl
@[simp] theorem takeMove_initPending (s : State) : s.takeMove.initPending = s.initPending := by unfold State.takeMove; split <;> rfl
@[simp] theorem takeMove_cmdPending (s : State) : s.takeMove.cmdPending = s.cmdPending := by unfold State.takeMove; split <;> rfl
@[simp] theorem takeMove_epoch (s : State) : s.takeMove.epoch = s.epoch := by unfold State.takeMove; split <;> rfl

/-! Issuing a request changes the requests of the environment only. -/

@[simp] theorem issue_cfg (s : State) (m : Move) (i : Instr) : (issue m i s).cfg = s.cfg := by unfold issue retire; split <;> [cases m <;> rfl; rfl]
@[simp] theorem issue_front (s : State) (m : Move) (i : Instr) : (issue m i s).front = s.front := by unfold issue retire; split <;> [cases m <;> rfl; rfl]
@[simp] theorem issue_buf0 (s : State) (m : Move) (i : Instr) : (issue m i s).buf0 = s.buf0 := by unfold issue retire; split <;> [cases m <;> rfl; rfl]
@[simp] theorem issue_buf1 (s : State) (m : Move) (i : Instr) : (issue m i s).buf1 = s.buf1 := by unfold issue retire; split <;> [cases m <;> rfl; rfl]
@[simp] theorem issue_ceDst (s : State) (m : Move) (i : Instr) : (issue m i s).ceDst = s.ceDst := by unfold issue retire; split <;> [cases m <;> rfl; rfl]
@[simp] theorem issue_ceIdx (s : State) (m : Move) (i : Instr) : (issue m i s).ceIdx = s.ceIdx := by unfold issue retire; split <;> [cases m <;> rfl; rfl]
@[simp] theorem issue_ceBusy (s : State) (m : Move) (i : Instr) : (issue m i s).ceBusy = s.ceBusy := by unfold issue retire; split <;> [cases m <;> rfl; rfl]
@[simp] theorem issue_capStarted (s : State) (m : Move) (i : Instr) : (issue m i s).capStarted = s.capStarted := by unfold issue retire; split <;> [cases m <;> rfl; rfl]
@[simp] theorem issue_ring (s : State) (m : Move) (i : Instr) : (issue m i s).ring = s.ring := by unfold issue retire; split <;> [cases m <;> rfl; rfl]
@[simp] theorem issue_cursor (s : State) (m : Move) (i : Instr) : (issue m i s).cursor = s.cursor := by unfold issue retire; split <;> [cases m <;> rfl; rfl]
@[simp] theorem issue_valid (s : State) (m : Move) (i : Instr) : (issue m i s).valid = s.valid := by unfold issue retire; split <;> [cases m <;> rfl; rfl]
@[simp] theorem issue_pubCount (s : State) (m : Move) (i : Instr) : (issue m i s).pubCount = s.pubCount := by unfold issue retire; split <;> [cases m <;> rfl; rfl]
@[simp] theorem issue_credit (s : State) (m : Move) (i : Instr) : (issue m i s).credit = s.credit := by unfold issue retire; split <;> [cases m <;> rfl; rfl]
@[simp] theorem issue_inFlight (s : State) (m : Move) (i : Instr) : (issue m i s).inFlight = s.inFlight := by unfold issue retire; split <;> [cases m <;> rfl; rfl]
@[simp] theorem issue_blk (s : State) (m : Move) (i : Instr) : (issue m i s).blk = s.blk := by unfold issue retire; split <;> [cases m <;> rfl; rfl]
@[simp] theorem issue_offset (s : State) (m : Move) (i : Instr) : (issue m i s).offset = s.offset := by unfold issue retire; split <;> [cases m <;> rfl; rfl]
@[simp] theorem issue_lastSent (s : State) (m : Move) (i : Instr) : (issue m i s).lastSent = s.lastSent := by unfold issue retire; split <;> [cases m <;> rfl; rfl]
@[simp] theorem issue_cmdArmed (s : State) (m : Move) (i : Instr) : (issue m i s).cmdArmed = s.cmdArmed := by unfold issue retire; split <;> [cases m <;> rfl; rfl]
@[simp] theorem issue_tainted (s : State) (m : Move) (i : Instr) : (issue m i s).tainted = s.tainted := by unfold issue retire; split <;> [cases m <;> rfl; rfl]
@[simp] theorem issue_seqEn (s : State) (m : Move) (i : Instr) : (issue m i s).seqEn = s.seqEn := by unfold issue retire; split <;> [cases m <;> rfl; rfl]
@[simp] theorem issue_seqPc (s : State) (m : Move) (i : Instr) : (issue m i s).seqPc = s.seqPc := by unfold issue retire; split <;> [cases m <;> rfl; rfl]
@[simp] theorem issue_rxq (s : State) (m : Move) (i : Instr) : (issue m i s).rxq = s.rxq := by unfold issue retire; split <;> [cases m <;> rfl; rfl]
@[simp] theorem issue_xferQ (s : State) (m : Move) (i : Instr) : (issue m i s).xferQ = s.xferQ := by unfold issue retire; split <;> [cases m <;> rfl; rfl]
@[simp] theorem issue_setupDone (s : State) (m : Move) (i : Instr) : (issue m i s).setupDone = s.setupDone := by unfold issue retire; split <;> [cases m <;> rfl; rfl]
@[simp] theorem issue_outputs (s : State) (m : Move) (i : Instr) : (issue m i s).outputs = s.outputs := by unfold issue retire; split <;> [cases m <;> rfl; rfl]
@[simp] theorem issue_hostRx (s : State) (m : Move) (i : Instr) : (issue m i s).hostRx = s.hostRx := by unfold issue retire; split <;> [cases m <;> rfl; rfl]
@[simp] theorem issue_moves (s : State) (m : Move) (i : Instr) : (issue m i s).moves = s.moves := by unfold issue retire; split <;> [cases m <;> rfl; rfl]
@[simp] theorem issue_draws (s : State) (m : Move) (i : Instr) : (issue m i s).draws = s.draws := by unfold issue retire; split <;> [cases m <;> rfl; rfl]
@[simp] theorem issue_epoch (s : State) (m : Move) (i : Instr) : (issue m i s).epoch = s.epoch := by unfold issue retire; split <;> [cases m <;> rfl; rfl]

end Sys2Proof.Machine
end

