-- ==== Sys2Proof/Laws/Memory.lean ====
section
/-! SUPPORT. The laws of the storage spaces: a read after a write, the canonical form, the ranges, and the same for the capture
buffers and the ring slots. -/

namespace Sys2Proof.Machine

/-- A read after a write: the value written at the index written, the earlier value everywhere else. -/
theorem Memory.read_write {w : Nat} (m : Memory w) (i j : Nat) (x : BitVec w) :
    Memory.read (Memory.write m i x) j = if j = i then some x else Memory.read m j := by
  induction m with
  | nil => simp [Memory.write, Memory.read]
  | cons c m ih =>
    obtain ⟨k, v⟩ := c
    unfold Memory.write
    split
    · simp [Memory.read]
    · split
      · rename_i h; subst h
        simp only [Memory.read]
        split <;> rfl
      · rename_i h1 h2
        simp only [Memory.read, ih]
        split
        · rename_i h; subst h
          rw [if_neg (fun h => h2 h.symm)]
        · rfl

/-- A write lists nothing but what it writes and what was listed. -/
theorem Memory.mem_write {w : Nat} {m : Memory w} {i : Nat} {x : BitVec w} {c : Nat × BitVec w}
    (h : c ∈ Memory.write m i x) : c = (i, x) ∨ c ∈ m := by
  induction m with
  | nil => simpa [Memory.write] using h
  | cons d m ih =>
    obtain ⟨k, v⟩ := d
    unfold Memory.write at h
    split at h
    · simpa using h
    · split at h
      · rcases List.mem_cons.1 h with h | h
        · exact .inl h
        · exact .inr (List.mem_cons_of_mem _ h)
      · rcases List.mem_cons.1 h with h | h
        · exact .inr (h ▸ List.mem_cons_self)
        · exact (ih h).imp_right (List.mem_cons_of_mem _)

/-- A write keeps the canonical form. -/
theorem Memory.write_wf {w : Nat} {m : Memory w} (h : m.wf) (i : Nat) (x : BitVec w) : (Memory.write m i x).wf := by
  induction m with
  | nil => simp [Memory.write]
  | cons c m ih =>
    obtain ⟨k, v⟩ := c
    have h' := List.pairwise_cons.1 h
    unfold Memory.write
    split
    · rename_i hik
      refine List.pairwise_cons.2 ⟨fun d hd => ?_, h⟩
      rcases List.mem_cons.1 hd with rfl | hd
      · exact hik
      · exact Nat.lt_trans hik (h'.1 d hd)
    · split
      · rename_i hik; subst hik
        exact List.pairwise_cons.2 ⟨h'.1, h'.2⟩
      · refine List.pairwise_cons.2 ⟨fun d hd => ?_, ih h'.2⟩
        rcases Memory.mem_write hd with rfl | hd
        · change k < i; omega
        · exact h'.1 d hd

/-- Reading after consecutive writes: the element of the list written there, the earlier value everywhere else. -/
theorem Memory.read_writeFrom {w : Nat} (m : Memory w) (i j : Nat) (xs : List (BitVec w)) :
    Memory.read (Memory.writeFrom m i xs) j =
      if i ≤ j ∧ j < i + xs.length then xs[j - i]? else Memory.read m j := by
  induction xs generalizing m i with
  | nil => simp only [Memory.writeFrom, List.length_nil]; rw [if_neg (by omega)]
  | cons x xs ih =>
    rw [Memory.writeFrom, ih, Memory.read_write, List.length_cons]
    by_cases h0 : j = i
    · subst h0
      rw [if_neg (by omega), if_pos rfl, if_pos (by omega)]
      simp
    · rw [if_neg h0]
      by_cases h1 : i + 1 ≤ j ∧ j < i + 1 + xs.length
      · rw [if_pos h1, if_pos (by omega)]
        obtain ⟨d, rfl⟩ := Nat.exists_eq_add_of_le h1.1
        rw [show i + 1 + d - (i + 1) = d by omega, show i + 1 + d - i = d + 1 by omega, List.getElem?_cons_succ]
      · rw [if_neg h1, if_neg (by omega)]

/-- Consecutive writes list nothing but elements of the list, in the range written, and what was listed. -/
theorem Memory.mem_writeFrom {w : Nat} {m : Memory w} {i : Nat} {xs : List (BitVec w)} {c : Nat × BitVec w}
    (h : c ∈ Memory.writeFrom m i xs) : (i ≤ c.1 ∧ c.1 < i + xs.length ∧ c.2 ∈ xs) ∨ c ∈ m := by
  induction xs generalizing m i with
  | nil => exact .inr h
  | cons x xs ih =>
    rcases ih h with ⟨h1, h2, h3⟩ | h
    · exact .inl ⟨by omega, by rw [List.length_cons]; omega, List.mem_cons_of_mem _ h3⟩
    · rcases Memory.mem_write h with rfl | h
      · exact .inl ⟨Nat.le_refl _, by simp, List.mem_cons_self⟩
      · exact .inr h

/-- Consecutive writes keep the canonical form. -/
theorem Memory.writeFrom_wf {w : Nat} {m : Memory w} (h : m.wf) (i : Nat) (xs : List (BitVec w)) :
    (Memory.writeFrom m i xs).wf := by
  induction xs generalizing m i with
  | nil => exact h
  | cons x xs ih => exact ih (Memory.write_wf h i x) (i + 1)

/-- Writing a buffer changes the two buffers only. -/
theorem writeBuf_frame (s : State) (b : BufId) (j : Nat) (w : Word) :
    s.writeBuf b j w = { s with buf0 := (s.writeBuf b j w).buf0, buf1 := (s.writeBuf b j w).buf1 } := by cases b <;> rfl

/-- A word of a capture buffer depends on the buffers and the reset draws only. -/
theorem bufWord_congr {s t : State} (h0 : t.buf0 = s.buf0) (h1 : t.buf1 = s.buf1) (he : t.epoch = s.epoch) (b : BufId)
    (j : Nat) : t.bufWord b j = s.bufWord b j := by
  cases b <;> simp [State.bufWord, State.buf, h0, h1, he]

/-- A word of a capture buffer after a write to that buffer or the other. -/
theorem bufWord_writeBuf (s : State) (b c : BufId) (i j : Nat) (w : Word) :
    (s.writeBuf b i w).bufWord c j = if c = b ∧ j = i then w else s.bufWord c j := by
  unfold State.bufWord State.writeBuf
  by_cases h : c = b
  · subst h
    rw [setBuf_buf_same, Memory.read_write, setBuf_epoch]
    by_cases hj : j = i <;> simp [hj]
  · rw [setBuf_buf_other s _ h, setBuf_epoch]
    simp [h]

/-- Every memory at reset is in canonical form. -/
theorem reset_memory_wf (p : Config.Params) (e : Nat) :
    (State.resetWith p e).buf0.wf ∧ (State.resetWith p e).buf1.wf ∧ (State.resetWith p e).ring.wf := by
  simp [State.resetWith]

/-- Indices of two entries agree only for the same slot and entry. -/
theorem ringIndex_inj {p : Config.Params} {s t e f : Nat} (he : e < p.slotLen) (hf : f < p.slotLen)
    (h : ringIndex p s e = ringIndex p t f) : s = t ∧ e = f := by
  unfold ringIndex at h
  have hs : s = t := by
    rcases Nat.lt_trichotomy s t with hlt | heq | hgt
    · have := Nat.mul_le_mul_right p.slotLen (Nat.succ_le_of_lt hlt)
      rw [Nat.succ_mul] at this; omega
    · exact heq
    · have := Nat.mul_le_mul_right p.slotLen (Nat.succ_le_of_lt hgt)
      rw [Nat.succ_mul] at this; omega
  subst hs
  exact ⟨rfl, by omega⟩

/-- A ring entry after a slot is filled: the new entry in that slot, the earlier one in every other. -/
theorem ringEntry_writeSlot (s : State) (t slot e : Nat) (es : List Entry) (hl : es.length = s.cfg.slotLen)
    (he : e < s.cfg.slotLen) :
    (s.writeSlot t es).ringEntry slot e = if slot = t then es.getD e 0#16 else s.ringEntry slot e := by
  unfold State.ringEntry
  rw [writeSlot_ring, writeSlot_cfg, writeSlot_epoch, Memory.read_writeFrom]
  by_cases h : slot = t
  · subst h
    rw [if_pos (by unfold ringIndex; omega), if_pos rfl]
    rw [show ringIndex s.cfg slot e - ringIndex s.cfg slot 0 = e by unfold ringIndex; omega,
      List.getElem?_eq_getElem (by omega), List.getD_eq_getElem?_getD, List.getElem?_eq_getElem (by omega)]
    rfl
  · rw [if_neg h, if_neg]
    rintro ⟨h1, h2⟩
    obtain ⟨d, hd⟩ := Nat.exists_eq_add_of_le h1
    have : ringIndex s.cfg slot e = ringIndex s.cfg t d := by rw [hd]; unfold ringIndex; omega
    exact h (ringIndex_inj he (by unfold ringIndex at *; omega) this).1

end Sys2Proof.Machine
end

