-- ==== Sys2Proof/Laws/Ops.lean ====
section
/-! SUPPORT. One lemma per shared operation that says all it does: the unpacked entries, the chunk primitive, the completion of
a transfer, the acknowledgement, the race's marks, the guarded forms. -/

namespace Sys2Proof.Machine

/-- Field k of a word is its bits 10k+9 down to 10k as a number (41_decoder.md R121). -/
theorem field_toNat (w : Word) (k : Nat) : (field w k).toNat = w.toNat / 2 ^ (10 * k) % 1024 := by
  have hm : Config.fieldMask.toNat = 2 ^ 10 - 1 := by decide
  simp only [field, BitVec.toNat_setWidth, BitVec.toNat_and, BitVec.toNat_ushiftRight, hm, Nat.and_two_pow_sub_one_eq_mod,
    Nat.shiftRight_eq_div_pow, show k * Config.fw = 10 * k by simp [Config.fw, Nat.mul_comm]]
  omega

theorem unpack_eq (w : Word) : unpack w = [field w 0, field w 1, field w 2] := rfl

@[simp] theorem unpackEntries_length (w : Word) : (unpackEntries w).length = 3 := rfl

@[simp] theorem sampleEntries_length (f : Nat → Word) (i : Nat) : (sampleEntries f i).length = Config.ch := rfl

/-- Every unpacked entry is a 10-bit sample (10_state.md R26). -/
theorem sampleEntries_lt {f : Nat → Word} {i : Nat} {x : Entry} (h : x ∈ sampleEntries f i) : x.toNat < 1024 := by
  simp only [sampleEntries, unpackEntries, List.mem_append, List.mem_map] at h
  obtain ⟨y, -, rfl⟩ | ⟨y, -, rfl⟩ := h <;>
  · have := y.isLt
    simp only [BitVec.toNat_setWidth]
    omega

theorem blockEntries_succ (n : Nat) (f : Nat → Word) :
    blockEntries (n + 1) f = blockEntries n f ++ sampleEntries f n := by
  simp [blockEntries, List.range_succ, List.flatMap_append]

@[simp] theorem blockEntries_length (spb : Nat) (f : Nat → Word) : (blockEntries spb f).length = spb * Config.ch := by
  induction spb with
  | zero => simp [blockEntries]
  | succ n ih => rw [blockEntries_succ, List.length_append, ih, sampleEntries_length, Nat.succ_mul]

/-- Entry i × 6 + c of a decoded block is offset c of sample i (20_memory.md R52). -/
theorem blockEntries_getD (spb : Nat) (f : Nat → Word) (i c : Nat) (hi : i < spb) (hc : c < Config.ch) :
    (blockEntries spb f).getD (i * Config.ch + c) 0#16 = (sampleEntries f i).getD c 0#16 := by
  induction spb with
  | zero => omega
  | succ n ih =>
    have hl := blockEntries_length n f
    simp only [List.getD_eq_getElem?_getD, blockEntries_succ] at *
    by_cases h : i < n
    · have : i * Config.ch + c < (blockEntries n f).length := by
        have := Nat.mul_le_mul_right Config.ch (Nat.succ_le_of_lt h)
        rw [Nat.succ_mul] at this; omega
      rw [List.getElem?_append_left this, ih h]
    · have : i = n := by omega
      subst this
      rw [List.getElem?_append_right (by omega), hl, show i * Config.ch + c - i * Config.ch = c by omega]

/-- Every entry of a decoded block is a 10-bit sample (10_state.md R26). -/
theorem blockEntries_lt {spb : Nat} {f : Nat → Word} {x : Entry} (h : x ∈ blockEntries spb f) : x.toNat < 1024 := by
  obtain ⟨i, -, hx⟩ := List.mem_flatMap.1 h
  exact sampleEntries_lt hx

/-- A decoded block depends only on the words it reads. -/
theorem blockEntries_congr (spb : Nat) {f g : Nat → Word} (h : ∀ j, j < 2 * spb → f j = g j) :
    blockEntries spb f = blockEntries spb g := by
  induction spb with
  | zero => simp [blockEntries]
  | succ n ih =>
    rw [blockEntries_succ, blockEntries_succ, ih (fun j hj => h j (by omega)), sampleEntries, sampleEntries,
      h (2 * n + 1) (by omega), h (2 * n) (by omega)]

@[simp] theorem drawBytes_length (d n : Nat) : (drawBytes d n).length = n := by simp [drawBytes]

@[simp] theorem chunkBytes_length (s : State) (slot offset : Nat) :
    (s.chunkBytes slot offset).length = chunkLen s.cfg offset := by simp [State.chunkBytes]

/-- The chunk of a slot depends only on the slot's entries and the parameters. -/
theorem chunkBytes_congr {s t : State} {slot offset : Nat} (hc : t.cfg = s.cfg)
    (h : ∀ e, e < s.cfg.slotLen → t.ringEntry slot e = s.ringEntry slot e) :
    t.chunkBytes slot offset = s.chunkBytes slot offset := by
  unfold State.chunkBytes
  rw [hc]
  refine List.map_congr_left (fun k hk => ?_)
  have hk := List.mem_range.1 hk
  have : (offset + k) / 2 < s.cfg.slotLen := by
    simp only [chunkLen, Config.Params.blockBytes, Config.unit, Config.Params.slotLen] at *
    omega
  simp [State.blockByte, h _ this]

/-- The entry `send_chunk` appends (42_streaming.md R153). -/
theorem sendChunk_xferQ (s : State) :
    (sendChunk s).xferQ = s.xferQ ++
      [{ slot := s.blk
         bytes := if s.tainted then drawBytes s.draws (chunkLen s.cfg s.offset) else s.chunkBytes s.blk s.offset
         taint := s.tainted }] := rfl

/-- What an acknowledgement does while a block is in flight: either the next chunk is issued, or the block ends
(42_streaming.md R155). -/
theorem advanceSend_cases (s : State) :
    (s.offset + chunkLen s.cfg s.offset < s.cfg.blockBytes ∧
      advanceSend s = sendChunk { s with offset := s.offset + chunkLen s.cfg s.offset }) ∨
    (s.cfg.blockBytes ≤ s.offset + chunkLen s.cfg s.offset ∧
      advanceSend s = { s with offset := s.offset + chunkLen s.cfg s.offset, inFlight := false }) := by
  unfold advanceSend
  by_cases h : s.offset + chunkLen s.cfg s.offset < s.cfg.blockBytes
  · exact .inl ⟨h, by simp [h]⟩
  · exact .inr ⟨by omega, by simp [h]⟩

/-- A completion takes the oldest pending transfer (42_streaming.md R155). -/
theorem completeTransfer_cons {s : State} {x : Transfer} {rest : List Transfer} (h : s.xferQ = x :: rest) :
    completeTransfer s =
      { s with
        xferQ := rest
        hostRx := s.hostRx ++ [deliveredBytes s.draws x]
        draws := if x.taint then s.draws + 1 else s.draws } := by
  unfold completeTransfer; rw [h]

/-- The race's marks never touch a transfer's slot or bytes (41_decoder.md R124). -/
theorem mem_taintCheck {t : Nat} {s : State} {y : Transfer} (h : y ∈ (taintCheck t s).xferQ) :
    ∃ x ∈ s.xferQ, y = { x with taint := x.taint || decide (x.slot = t) } := by
  obtain ⟨x, hx, rfl⟩ := List.mem_map.1 h
  exact ⟨x, hx, rfl⟩

/-- A guarded operation always answers a next state: its effect, or the same state. -/
theorem guarded_next {g : Bool} {act : State → State} {s t : State} (h : guarded g act s = .next t) :
    (g = true ∧ t = act s) ∨ (g = false ∧ t = s) := by
  cases g
  · exact .inr ⟨rfl, by simpa [guarded] using h.symm⟩
  · exact .inl ⟨rfl, by simpa [guarded] using h.symm⟩

/-- A foreground operation answers a next state only after the hardware setup. -/
theorem foreground_next {g : Bool} {act : State → State} {s t : State} (h : foreground g act s = .next t) :
    s.setupDone = true ∧ ((g = true ∧ t = act s) ∨ (g = false ∧ t = s)) := by
  unfold foreground at h
  split at h
  · exact ⟨‹_›, guarded_next h⟩
  · cases h

/-- A CMD_RX does its row's effect and re-arms the channel, or has no step (42_streaming.md R142, R147). -/
theorem cmdRx_next {row : State → State} {s t : State} (h : cmdRx row s = .next t) :
    (s.cmdArmed = true ∧ t = rearm (row { s with cmdArmed := false })) ∨ (s.cmdArmed = false ∧ t = s) :=
  guarded_next h

end Sys2Proof.Machine
end

