-- ==== Sys2Proof/Laws/PerInstr.lean ====
section
/-! SUPPORT. Statements made for every instruction, one lemma a constructor. `RequestForm`: the encoding of a well-formed
instruction is an operation code in a byte of its own, then at most 255 payload bytes (30_encoding.md R70, R78). -/

namespace Sys2Proof.Laws.RequestForm

def Statement (i : Instr) : Prop :=
  i.wf = true → ∀ bs, encode i = some bs → ∃ op payload, bs = opByte op :: payload ∧ payload.length ≤ Config.maxPayload

theorem of_short {i : Instr} {op : Op4} {payload : List Byte} (he : encode i = some (opByte op :: payload))
    (hl : payload.length ≤ Config.maxPayload) : Statement i := by
  intro _ bs h
  rw [he] at h
  cases h
  exact ⟨op, payload, rfl, hl⟩

theorem startCapture : Statement .startCapture := of_short rfl (by decide)
theorem waitCapture : Statement .waitCapture := of_short rfl (by decide)
theorem decode : Statement .decode := of_short rfl (by decide)
theorem linkInit : Statement .linkInit := of_short rfl (by decide)
theorem cmdBadLen (payload : List Byte) : Statement (.cmdBadLen payload) := by
  intro hw
  simp only [Instr.wf, Bool.and_eq_true, decide_eq_true_eq] at hw
  exact of_short rfl hw.2 (by simp [Instr.wf, hw])
theorem cmdBadOp (byte0 byte1 : Byte) : Statement (.cmdBadOp byte0 byte1) := of_short rfl (by simp [Config.maxPayload])
theorem grantZero : Statement .grantZero := of_short rfl (by decide)
theorem grantCredit (n : Byte) : Statement (.grantCredit n) := of_short rfl (by simp [Config.maxPayload])
theorem chunkAck : Statement .chunkAck := of_short rfl (by decide)
theorem chunkAckStray : Statement .chunkAckStray := of_short rfl (by decide)
theorem seqPush (w : Word) : Statement (.seqPush w) := fun _ _ h => by cases h
theorem ceCopy : Statement .ceCopy := fun _ _ h => by cases h
theorem beginSend : Statement .beginSend := fun _ _ h => by cases h
theorem reserved (op : Op4) : Statement (.reserved op) := of_short rfl (by simp [Config.maxPayload])

end Sys2Proof.Laws.RequestForm
end

