-- ==== Sys2Proof/Laws/Step.lean ====
section
/-! SUPPORT. What one instruction and one step can do, said once: the effect of each instruction, and the inversion lemmas of
`exec`, of the interleaving and of `step`. -/

namespace Sys2Proof.Machine

/-- The state change of an instruction whose guard holds. -/
def effect : Instr → State → State
  | .startCapture, s => startCapture s
  | .waitCapture, s => State.emit { s with seqEn := false } [.seqDisable]
  | .decode, s => decodeBlock s
  | .linkInit, s => linkInit s
  | .cmdBadLen _, s => rearm { s with cmdArmed := false }
  | .cmdBadOp _ _, s => rearm { s with cmdArmed := false }
  | .grantZero, s => rearm { s with cmdArmed := false }
  | .grantCredit n, s => rearm (grant n { s with cmdArmed := false })
  | .chunkAck, s => if s.inFlight then advanceSend (completeTransfer s) else completeTransfer s
  | .chunkAckStray, s => completeTransfer s
  | .seqPush w, s => { s with rxq := s.rxq ++ [w], seqPc := Config.freeSeqPc s.draws, draws := s.draws + 1 }
  | .ceCopy, s => copyWord s
  | .beginSend, s => beginSend s
  | .reserved _, s => s

/-- An instruction that answers a next state has its effect where its guard holds, and no effect where it does not. -/
theorem exec_next {i : Instr} {s t : State} (h : exec i s = .next t) :
    (enabled i s = true ∧ t = effect i s) ∨ (enabled i s = false ∧ t = s) := by
  cases i with
  | startCapture => exact (foreground_next h).2
  | waitCapture => exact (foreground_next h).2
  | decode => exact (foreground_next h).2
  | linkInit => exact guarded_next h
  | cmdBadLen p => exact cmdRx_next (row := fun s => s) h
  | cmdBadOp a b => exact cmdRx_next (row := fun s => s) h
  | grantZero => exact cmdRx_next (row := fun s => s) h
  | grantCredit n => exact cmdRx_next (row := grant n) h
  | chunkAck => exact guarded_next h
  | chunkAckStray => exact guarded_next h
  | seqPush w => exact guarded_next h
  | ceCopy => exact guarded_next h
  | beginSend => exact guarded_next h
  | reserved op => cases h

/-- A foreground instruction answers a next state only after the hardware setup. -/
theorem exec_setup {i : Instr} {s t : State} (h : exec i s = .next t) (ha : agentOf i = some .fg) : s.setupDone = true := by
  cases i with
  | startCapture => exact (foreground_next h).1
  | waitCapture => exact (foreground_next h).1
  | decode => exact (foreground_next h).1
  | linkInit | cmdBadLen | cmdBadOp | grantZero | grantCredit | chunkAck | chunkAckStray | seqPush | ceCopy | beginSend |
    reserved => cases ha

/-- Every instruction but a reserved code answers a next state once the hardware setup has taken place. -/
theorem exec_of_setup {i : Instr} {s : State} (hs : s.setupDone = true) (hr : ∀ op, i ≠ .reserved op) :
    exec i s = .next (if enabled i s then effect i s else s) := by
  cases i with
  | startCapture | waitCapture | decode => simp [exec, execStartCapture, execWaitCapture, execDecode, foreground, hs,
      guarded, enabled, effect]
  | linkInit | cmdBadLen | cmdBadOp | grantZero | grantCredit | chunkAck | chunkAckStray | seqPush | ceCopy | beginSend => rfl
  | reserved op => exact absurd rfl (hr op)

/-- Sequences compose. -/
theorem execAll_append (is js : List Instr) (s : State) :
    execAll (is ++ js) s =
      match execAll is s with
      | .next t => execAll js t
      | .fault f => .fault f
      | .refused r => .refused r := by
  induction is generalizing s with
  | nil => rfl
  | cons i is ih =>
    simp only [List.cons_append, execAll]
    cases exec i s with
    | next t => exact ih t
    | fault f => rfl
    | refused r => rfl

/-- A guard reads nothing that taking a move or issuing a request changes. -/
theorem enabled_takeMove (i : Instr) (s : State) : enabled i s.takeMove = enabled i s := by
  cases i <;> simp [enabled, State.captureDone, State.seqReady, State.ceReady, State.sendReady, State.ackReady, State.curId]

theorem enabled_issue (i j : Instr) (m : Move) (s : State) : enabled i (issue m j s) = enabled i s := by
  cases i <;> simp [enabled, State.captureDone, State.seqReady, State.ceReady, State.sendReady, State.ackReady, State.curId]

/-- What a step that answers a next state did: nothing but take its move, a move of the environment, or an instruction. -/
theorem step_next {s t : State} (h : step s = .next t) :
    s.cfg.ok = true ∧
      ((s.stepOp = none ∧ t = s.takeMove) ∨
        (s.stepOp = none ∧ t = environmentMove s.nextMove s.takeMove) ∨
        ∃ i, s.stepOp = some i ∧ exec i (issue s.nextMove i s.takeMove) = .next t) := by
  unfold step at h
  split at h
  · refine ⟨‹_›, ?_⟩
    unfold State.stepOp
    cases hf : fetch s.nextMove s.takeMove with
    | nothing => rw [hf] at h; exact .inl ⟨rfl, by simpa using h.symm⟩
    | environment => rw [hf] at h; exact .inr (.inl ⟨rfl, by simpa using h.symm⟩)
    | operation i => rw [hf] at h; exact .inr (.inr ⟨i, rfl, h⟩)
    | refusal r => rw [hf] at h; cases h
  · cases h

/-- What a move of the environment can do: a device reset, or no more than make FG's program longer, a LINK_INIT or a command
pending, or the hardware setup done. -/
theorem environmentMove_cases (m : Move) (s : State) :
    (m = .deviceReset ∧ environmentMove m s = deviceReset s) ∨
      ∃ ops k c d, environmentMove m s =
          { s with fgNext := s.fgNext ++ ops, initPending := s.initPending + k, cmdPending := c, setupDone := d } ∧
        (c = s.cmdPending ∨ ∃ p, c = some p ∧ s.canReceive p = true) ∧ (d = s.setupDone ∨ d = true) := by
  cases m with
  | deviceReset => exact .inl ⟨rfl, rfl⟩
  | fg | linkInit | cmdRx | chunkAck | seqPush | ceCopy | beginSend | request =>
    exact .inr ⟨[], 0, s.cmdPending, s.setupDone, by simp [environmentMove], .inl rfl, .inl rfl⟩
  | fgExtend op => exact .inr ⟨[op], 0, s.cmdPending, s.setupDone, rfl, .inl rfl, .inl rfl⟩
  | hostLinkUp => exact .inr ⟨[], 1, s.cmdPending, s.setupDone, by simp [environmentMove], .inl rfl, .inl rfl⟩
  | hwSetup => exact .inr ⟨[], 0, s.cmdPending, true, by simp [environmentMove], .inl rfl, .inr rfl⟩
  | hostCommand p =>
    by_cases h : s.canReceive p = true
    · exact .inr ⟨[], 0, some p, s.setupDone, by simp [environmentMove, h], .inr ⟨p, rfl, h⟩, .inl rfl⟩
    · exact .inr ⟨[], 0, s.cmdPending, s.setupDone, by simp [environmentMove, h], .inl rfl, .inl rfl⟩

end Sys2Proof.Machine
end

