-- ==== Sys2Proof/Tests/Slice0.lean ====
section
/-! SUPPORT. The model's own tests: ill-formed terms refused, written-out requests decoded, one or two small steps an instruction
with the results of 95_test_vectors.md, and for every obligation with hypotheses a named state that meets them. -/

open Sys2Proof Sys2Proof.Machine

namespace Slice0

/-! ## Well-formedness: 30_encoding.md R72, R74 -/

theorem test_wf_badLen_refuses_length_two : Instr.wf (.cmdBadLen [0x01#8, 0x03#8]) = false := by decide

theorem test_wf_badLen_refuses_over_255 (payload : List Byte) (h : payload.length = 256) :
    Instr.wf (.cmdBadLen payload) = false := by simp [Instr.wf, Config.maxPayload, h]

theorem test_wf_badOp_refuses_grant_opcode : Instr.wf (.cmdBadOp 0x01#8 0x05#8) = false := by decide

theorem test_wf_grant_refuses_zero : Instr.wf (.grantCredit 0#8) = false := by decide

theorem test_wf_reserved_refuses_assigned :
    ([0x1#4, 0x2#4, 0x3#4, 0x8#4, 0x9#4, 0xA#4].map (fun op => Instr.wf (.reserved op))) =
      [false, false, false, false, false, false] := by decide

/-! ## Decoding: the codes of 30_encoding.md R71 and the payloads of 95_test_vectors.md, written out -/

/-- What the decoder reads with a block in flight, if it reads something. -/
def reads (bs : List Byte) : Option Instr :=
  match Sys2Proof.decode true bs with
  | .ok i => some i
  | .error _ => none

theorem test_decode_startCapture : reads [0x01#8] = some .startCapture := by decide

theorem test_decode_waitCapture : reads [0x02#8] = some .waitCapture := by decide

theorem test_decode_decode : reads [0x03#8] = some .decode := by decide

theorem test_decode_linkInit : reads [0x08#8] = some .linkInit := by decide

/-- CMD1, CMD2, CMD3. -/
theorem test_decode_cmdBadLen :
    reads [0x09#8] = some (.cmdBadLen []) ∧ reads [0x09#8, 0x01#8] = some (.cmdBadLen [0x01#8]) ∧
      reads [0x09#8, 0x01#8, 0x03#8, 0x00#8] = some (.cmdBadLen [0x01#8, 0x03#8, 0x00#8]) := by decide

/-- CMD4, CMD5, CMD6. -/
theorem test_decode_cmdBadOp :
    reads [0x09#8, 0x00#8, 0x05#8] = some (.cmdBadOp 0x00#8 0x05#8) ∧
      reads [0x09#8, 0x02#8, 0x05#8] = some (.cmdBadOp 0x02#8 0x05#8) ∧
      reads [0x09#8, 0xFF#8, 0x00#8] = some (.cmdBadOp 0xFF#8 0x00#8) := by decide

/-- CMD7. -/
theorem test_decode_grantZero : reads [0x09#8, 0x01#8, 0x00#8] = some .grantZero := by decide

/-- CMD8, CMD9, CMD10. -/
theorem test_decode_grantCredit :
    reads [0x09#8, 0x01#8, 0x01#8] = some (.grantCredit 0x01#8) ∧
      reads [0x09#8, 0x01#8, 0x03#8] = some (.grantCredit 0x03#8) ∧
      reads [0x09#8, 0x01#8, 0xFF#8] = some (.grantCredit 0xFF#8) := by decide

/-- ENC6, with R155 and R156. -/
theorem test_decode_chunkAck : reads [0x0A#8] = some .chunkAck ∧
    (match Sys2Proof.decode false [0x0A#8] with | .ok i => some i | .error _ => none) = some .chunkAckStray := by decide

/-- ENC7. -/
theorem test_decode_reserved :
    reads [0x00#8] = some (.reserved 0x0#4) ∧ reads [0x07#8] = some (.reserved 0x7#4) ∧
      reads [0x0B#8] = some (.reserved 0xB#4) ∧ reads [0x0F#8] = some (.reserved 0xF#4) := by decide

/-- No request: no code, a code above 4 bits (R80), bytes after an operation without operand (R71). -/
theorem test_decode_rejects : reads [] = none ∧ reads [0x11#8] = none ∧ reads [0x01#8, 0x00#8] = none := by decide

/-- The three autonomous steps have no encoding (R70 `STEP`). -/
theorem test_encode_steps_have_none :
    encode (.seqPush 0x00501003#32) = none ∧ encode .ceCopy = none ∧ encode .beginSend = none := by decide

/-- Words as spec/opcode_table.json numbers them: an `OP4` code in 4 or 8 bits, the packet `P` = (byte0, byte1) in 16. -/
theorem test_table_words :
    decodeTableWord 8 0x1 = some .startCapture ∧ decodeTableWord 4 0xA = some .chunkAck ∧
      decodeTableWord 8 0x9 = some (.cmdBadLen []) ∧ decodeTableWord 16 0x0100 = some .grantZero ∧
      decodeTableWord 16 0x0103 = some (.grantCredit 0x03#8) ∧ decodeTableWord 16 0x0205 = some (.cmdBadOp 0x02#8 0x05#8) := by
  decide

/-- `CYCLE` expands to START, WAIT, DECODE in that order (30_encoding.md R79). -/
theorem test_cycle_expands : cycleCodes.map (fun op => reads [opByte op]) =
    [some .startCapture, some .waitCapture, some .decode] := by decide

/-! ## Steps: the vectors of 95_test_vectors.md -/

/-- What `f` sees of the next state. -/
def look {α : Type} (r : Result) (f : State → α) : Option α :=
  match r with
  | .next t => some (f t)
  | .fault _ => none
  | .refused _ => none

/-- Reset under `SPB` = spb and the vectors' other parameters. -/
def base (spb : Nat) : State := State.resetWith ⟨spb, 4, 4, .slot⟩ 0

/-- CAP1. -/
theorem test_startCapture_from_reset :
    look (exec .startCapture (base 2)) (fun t => (t.front, t.ceDst, t.ceIdx, t.ceBusy, t.capStarted, t.seqEn, t.rxq)) =
      some (.b1, .b0, 0, true, true, true, []) := by rfl

/-- CAP3, CAP4: a partial transfer is aborted, its words stay, the queue is discarded. -/
theorem test_startCapture_aborts :
    look (exec .startCapture { base 2 with
        front := .b1, ceDst := .b0, ceIdx := 2, ceBusy := true, capStarted := true, seqEn := true
        buf0 := [(0, 7#32), (1, 8#32)], rxq := [1#32, 2#32] })
      (fun t => (t.front, t.ceDst, t.ceIdx, t.ceBusy, t.rxq, t.bufWord .b0 1)) =
      some (.b0, .b1, 0, true, [], 8#32) := by rfl

/-- CAP5: stuck before any START_CAPTURE, and FG still waits in it. -/
theorem test_waitCapture_stuck :
    look (step { base 2 with fgNext := [0x2#4, 0x3#4], moves := [.fg] }) (fun t => (t.fgDone, t.fgNext, t.seqEn)) =
      some ([], [0x2#4, 0x3#4], false) := by rfl

/-- CAP7: the sequencer is disabled, a word pushed late stays. -/
theorem test_waitCapture_returns :
    look (exec .waitCapture { base 2 with capStarted := true, seqEn := true, rxq := [5#32] })
      (fun t => (t.seqEn, t.rxq, t.outputs)) = some (false, [5#32], [.seqDisable]) := by rfl

/-- CAP11. -/
theorem test_seqPush_appends :
    look (exec (.seqPush 0x00501003#32) { base 2 with seqEn := true }) (fun t => t.rxq) = some [0x00501003#32] := by rfl

/-- CAP9, CAP10: not enabled. -/
theorem test_seqPush_stalls :
    look (exec (.seqPush 9#32) { base 2 with seqEn := true, rxq := [1#32, 2#32, 3#32, 4#32] }) (fun t => t.rxq) =
        some [1#32, 2#32, 3#32, 4#32] ∧
      look (exec (.seqPush 9#32) (base 2)) (fun t => t.rxq) = some [] := ⟨rfl, rfl⟩

/-- CAP14. -/
theorem test_ceCopy_moves_head :
    look (exec .ceCopy { base 2 with ceBusy := true, rxq := [6#32, 7#32] })
      (fun t => (t.bufWord .b0 0, t.ceIdx, t.ceBusy, t.rxq)) = some (6#32, 1, true, [7#32]) := by rfl

/-- CAP15. -/
theorem test_ceCopy_last_word :
    look (exec .ceCopy { base 2 with ceBusy := true, ceIdx := 3, rxq := [0x00801C06#32] })
      (fun t => (t.bufWord .b0 3, t.ceIdx, t.ceBusy, t.rxq)) = some (0x00801C06#32, 4, false, []) := by rfl

/-- UNP5, UNP6, UNP3. -/
theorem test_unpack :
    (unpack 0x12345678#32).map BitVec.toNat = [632, 277, 291] ∧ (unpack 0x89ABCDEF#32).map BitVec.toNat = [495, 755, 154] ∧
      (unpack 0xC0000000#32).map BitVec.toNat = [0, 0, 0] := ⟨rfl, rfl, rfl⟩

/-- DEC1: the word at index 1 fills offsets 0 to 2. -/
theorem test_decode_slot :
    look (exec .decode { base 1 with buf0 := [(0, 0x001003FF#32), (1, 0x2007FC01#32)] })
      (fun t => ((List.range 6).map (fun e => (t.ringEntry 1 e).toNat), t.cursor, t.valid, t.pubCount)) =
      some ([1, 511, 512, 1023, 0, 1], 1, true, 1) := by rfl

/-- DEC4 and DEC7: the cursor wraps; the overwritten block is marked. -/
theorem test_decode_race :
    look (exec .decode { base 1 with
        buf0 := [(0, 0#32), (1, 0#32)], cursor := 3, valid := true, inFlight := true, blk := 0, xferQ := [⟨0, [1#8], false⟩] })
      (fun t => (t.cursor, t.tainted, t.xferQ)) = some (0, true, [⟨0, [1#8], true⟩]) := by rfl

/-- The entries of DEC3 in slot 1. -/
def slotOne : Memory 16 := [(6, 632#16), (7, 277#16), (8, 291#16), (9, 495#16), (10, 755#16), (11, 154#16)]

/-- A published block and a grant of 2, with `SPB` = 1. -/
def armed : State := { base 1 with ring := slotOne, cursor := 1, valid := true, pubCount := 1, credit := 2#8, cmdArmed := true }

/-- BS1 and SER1. -/
theorem test_beginSend :
    look (exec .beginSend armed) (fun t => (t.inFlight, t.credit, t.blk, t.lastSent, t.offset, t.xferQ)) =
      some (true, 1#8, 1, some 1, 0,
        [⟨1, [0x78#8, 0x02#8, 0x15#8, 0x01#8, 0x23#8, 0x01#8, 0xEF#8, 0x01#8, 0xF3#8, 0x02#8, 0x9A#8, 0x00#8], false⟩]) := by
  rfl

/-- BS5: no send of the block last sent. -/
theorem test_beginSend_no_double_send :
    look (exec .beginSend { armed with lastSent := some 1 }) (fun t => (t.inFlight, t.xferQ)) = some (false, []) := by rfl

/-- A block in flight, its only chunk pending, `SPB` = 1. -/
def sending : State := { armed with
  credit := 2#8, inFlight := true, blk := 1, lastSent := some 1
  xferQ := [⟨1, [0x78#8, 0x02#8, 0x15#8, 0x01#8, 0x23#8, 0x01#8, 0xEF#8, 0x01#8, 0xF3#8, 0x02#8, 0x9A#8, 0x00#8], false⟩] }

/-- ACK2, in its `SPB` = 1 form (CH1): the last acknowledgement. -/
theorem test_chunkAck_last :
    look (exec .chunkAck sending) (fun t => (t.offset, t.inFlight, t.xferQ, t.ssmState, t.hostRx.length)) =
      some (12, false, [], .armed, 1) := by rfl

/-- ACK1: the next chunk, with `BB` = 384. -/
theorem test_chunkAck_next :
    look (exec .chunkAck { base 32 with inFlight := true, blk := 1, tainted := true, xferQ := [⟨1, [7#8], false⟩] })
      (fun t => (t.offset, t.inFlight, t.xferQ.map (fun x => (x.slot, x.bytes.length, x.taint)), t.hostRx)) =
      some (64, true, [(1, 64, true)], [[7#8]]) := by rfl

/-- ACK4. -/
theorem test_chunkAckStray :
    look (exec .chunkAckStray { armed with xferQ := [⟨1, [7#8], false⟩] })
      (fun t => (t.xferQ, t.hostRx, t.credit, t.lastSent)) = some ([], [[7#8]], 2#8, none) := by rfl

/-- LI2. -/
theorem test_linkInit :
    look (exec .linkInit { sending with tainted := true })
      (fun t => (t.credit, t.inFlight, t.offset, t.lastSent, t.tainted, t.xferQ, t.blk, t.cmdArmed, t.outputs)) =
      some (0#8, false, 0, none, false, [], 1, true, [.armCmd 2]) := by rfl

/-- CMD3, CMD5 and CMD7 while SENDING: nothing of the session changes. -/
theorem test_ignored_commands :
    [Instr.cmdBadLen [0x01#8, 0x03#8, 0x00#8], .cmdBadOp 0x02#8 0x05#8, .grantZero].map
      (fun i => look (exec i { sending with offset := 128 })
        (fun t => (t.credit, t.inFlight, t.offset, t.lastSent, t.xferQ.length, t.cmdArmed))) =
      List.replicate 3 (some (2#8, true, 128, some 1, 1, true)) := by rfl

/-- CMD9 while SENDING. -/
theorem test_grantCredit :
    look (exec (.grantCredit 3#8) { sending with offset := 128, tainted := true })
      (fun t => (t.credit, t.inFlight, t.offset, t.tainted, t.blk, t.lastSent, t.xferQ.length)) =
      some (3#8, false, 0, false, 1, some 1, 1) := by rfl

/-- No CMD_RX before LINK_INIT (D24). -/
theorem test_grantCredit_unarmed : look (exec (.grantCredit 3#8) (base 1)) (fun t => t.credit) = some 0#8 := by rfl

/-- A placed word runs next, from the reset state. -/
theorem test_withFetchWord :
    look (step (State.reset.withFetchWord 8 0x1)) (fun t => (t.front, t.fgNext)) = some (.b1, []) ∧
      look (step ({ State.reset with cmdArmed := true }.withFetchWord 16 0x01FF)) (fun t => (t.credit, t.cmdPending)) =
        some (0xFF#8, none) := ⟨rfl, rfl⟩

/-- At most one command is pending (60_exceptions.md R173): a second receive has no step. -/
theorem test_hostCommand_at_most_one :
    look (step { armed with cmdPending := some [1#8], moves := [.hostCommand [2#8]] }) (fun t => t.cmdPending) =
        some (some [1#8]) ∧
      look (step { armed with moves := [.hostCommand [2#8]] }) (fun t => t.cmdPending) = some (some [2#8]) := ⟨rfl, rfl⟩

/-! ## Witnesses: states and operands that meet the hypotheses of each obligation -/

/-- A capture under way: one word copied, two queued. -/
def capturing : State := { base 2 with
  front := .b1, ceIdx := 1, ceBusy := true, capStarted := true, seqEn := true, buf0 := [(0, 5#32)], rxq := [6#32, 7#32] }

/-- A completed capture. -/
def captured : State := { capturing with ceIdx := 4, ceBusy := false, rxq := [] }

theorem witness_DecodeGivesBackEncodedInstruction :
    (Instr.wf (.grantCredit 0xFF#8) = true ∧ encode (.grantCredit 0xFF#8) = some [0x09#8, 0x01#8, 0xFF#8]) ∧
      (Instr.wf (.cmdBadLen []) = true ∧ encode (.cmdBadLen []) = some [0x09#8]) ∧
      (Instr.wf (.reserved 0xF#4) = true ∧ encode (.reserved 0xF#4) = some [0x0F#8]) ∧
      (Instr.wf .chunkAckStray = true ∧ encode .chunkAckStray = some [0x0A#8]) := by decide

theorem witness_DecodedRequestIsItsOwnEncoding :
    Sys2Proof.decode true [0x0A#8] = .ok .chunkAck ∧ Sys2Proof.decode false [0x0A#8] = .ok .chunkAckStray ∧
      Sys2Proof.decode true [0x09#8, 0x01#8, 0x01#8] = .ok (.grantCredit 0x01#8) := ⟨rfl, rfl, rfl⟩

/-- Lengths 0, 1, 3 and 255 of the first clause; the three rows of the second, at their boundary values. -/
theorem witness_CommandPayloadSelectsRowInOrder :
    (([] : List Byte).length ≤ 255 ∧ ([] : List Byte).length ≠ 2) ∧ ([0x01#8] : List Byte).length ≠ 2 ∧
      ([0x01#8, 0x03#8, 0x00#8] : List Byte).length ≠ 2 ∧ (List.replicate 255 0x01#8).length ≤ 255 ∧
      ([0x02#8, 0x00#8] : List Byte).length = 2 ∧ ([0x01#8, 0x00#8] : List Byte).length = 2 ∧
      ([0x01#8, 0x01#8] : List Byte).length = 2 :=
  ⟨⟨by decide, by decide⟩, by decide, by decide, le_of_eq List.length_replicate, rfl, rfl, rfl⟩

/-- The first and the last code of each reserved range. -/
theorem witness_ReservedCodesAreRefused :
    Sys2Proof.decode true [opByte 0x0#4] = .ok (.reserved 0x0#4) ∧ Sys2Proof.decode true [opByte 0x4#4] = .ok (.reserved 0x4#4) ∧
      Sys2Proof.decode true [opByte 0x7#4] = .ok (.reserved 0x7#4) ∧
      Sys2Proof.decode true [opByte 0xB#4] = .ok (.reserved 0xB#4) ∧
      Sys2Proof.decode true [opByte 0xF#4] = .ok (.reserved 0xF#4) := ⟨rfl, rfl, rfl, rfl, rfl⟩

/-- An enabled START and a stuck WAIT. -/
theorem witness_StepRunsForegroundOperation :
    ∃ s t : State, (s.cfg.ok = true ∧ s.moves = [.fg] ∧ s.fgNext = [0x1#4] ∧
        Sys2Proof.decode s.inFlight [opByte 0x1#4] = .ok .startCapture ∧ enabled .startCapture s = true) ∧
      (t.cfg.ok = true ∧ t.moves = [.fg] ∧ t.fgNext = [0x2#4] ∧
        Sys2Proof.decode t.inFlight [opByte 0x2#4] = .ok .waitCapture ∧ enabled .waitCapture t = false) :=
  ⟨{ base 2 with fgNext := [0x1#4], moves := [.fg] }, { base 2 with fgNext := [0x2#4], moves := [.fg] },
    ⟨rfl, rfl, rfl, rfl, rfl⟩, ⟨rfl, rfl, rfl, rfl, rfl⟩⟩

/-- A LINK_INIT, a command and a completion pending at once, and a state in which nothing is. -/
theorem witness_StepRunsLinkEvent :
    (∃ s : State, s.cfg.ok = true ∧ s.initPending = 0 + 1 ∧ s.cmdPending = some [0x01#8, 0x02#8] ∧ s.cmdArmed = true ∧
      Sys2Proof.decode s.inFlight [0x09#8, 0x01#8, 0x02#8] = .ok (.grantCredit 0x02#8) ∧ s.inFlight = true ∧ s.xferQ ≠ [] ∧
      s.moves = [.linkInit] ∧ { s with moves := [.cmdRx] }.moves = [.cmdRx] ∧ { s with moves := [.chunkAck] }.moves = [.chunkAck]) ∧
      (base 2).initPending = 0 ∧ (base 2).cmdPending = none ∧ (base 2).xferQ = [] :=
  ⟨⟨{ sending with initPending := 1, cmdPending := some [0x01#8, 0x02#8], moves := [.linkInit] },
    rfl, rfl, rfl, rfl, rfl, rfl, by decide, rfl, rfl, rfl⟩, rfl, rfl, rfl⟩

/-- A receive that can complete, an unarmed channel, one pending already; 255 bytes and 256. -/
theorem witness_EnvironmentAddsEvents :
    (armed.cfg.ok = true ∧ armed.cmdArmed = true ∧ armed.cmdPending = none) ∧ (base 2).cmdArmed = false ∧
      (∃ s : State, s.cmdArmed = true ∧ s.cmdPending ≠ none) ∧ (List.replicate 255 0x01#8).length ≤ 255 ∧
      255 < (List.replicate 256 0x01#8).length ∧ { armed with moves := [.hostCommand []] }.moves = [.hostCommand []] :=
  ⟨⟨rfl, rfl, rfl⟩, rfl, ⟨{ armed with cmdPending := some [] }, rfl, by decide⟩, le_of_eq List.length_replicate,
    by rw [List.length_replicate]; decide, rfl⟩

theorem witness_StepRunsAutonomousStep :
    ∃ s t u : State, s.cfg.ok = true ∧ s.moves = [.seqPush 6#32] ∧ t.cfg.ok = true ∧ t.moves = [.ceCopy] ∧
      u.cfg.ok = true ∧ u.moves = [.beginSend] :=
  ⟨{ capturing with moves := [.seqPush 6#32] }, { capturing with moves := [.ceCopy] }, { armed with moves := [.beginSend] },
    rfl, rfl, rfl, rfl, rfl, rfl⟩

/-- A code for FG, a code for LINK at the same width, a packet, the reserved code 0xF. -/
theorem witness_PlacedTableWordRunsNext :
    ((base 2).cfg.ok = true ∧ Sys2Proof.decode (base 2).inFlight (requestOfTableWord 8 0x1) = .ok .startCapture ∧
        enabled .startCapture (base 2) = true) ∧
      (Sys2Proof.decode (base 2).inFlight (requestOfTableWord 8 0x8) = .ok .linkInit ∧ enabled .linkInit (base 2) = true) ∧
      (Sys2Proof.decode armed.inFlight (requestOfTableWord 16 0x01FF) = .ok (.grantCredit 0xFF#8) ∧
        enabled (.grantCredit 0xFF#8) armed = true) ∧
      Sys2Proof.decode (base 2).inFlight (requestOfTableWord 4 0xF) = .ok (.reserved 0xF#4) :=
  ⟨⟨rfl, rfl, rfl⟩, ⟨rfl, rfl⟩, ⟨rfl, rfl⟩, rfl⟩

/-- Each constraint broken alone, at its boundary, and the least admitted set. -/
theorem witness_BadParametersAreRefused :
    Config.Params.ok ⟨0, 2, 1, .slot⟩ = false ∧ Config.Params.ok ⟨1, 1, 1, .slot⟩ = false ∧
      Config.Params.ok ⟨1, 2, 0, .slot⟩ = false ∧ Config.Params.ok ⟨1, 2, 1, .slot⟩ = true := by decide

/-- A next state, a refusal before the setup, a reserved code. -/
theorem witness_OnlyReservedAndUnsetHardwareAreRefused :
    (∃ t, exec .decode (base 2) = .next t) ∧ exec .decode { base 2 with setupDone := false } = .refused .beforeSetup ∧
      exec (.reserved 0xF#4) (base 2) = .refused (.reservedOp 0xF#4) := ⟨⟨_, rfl⟩, rfl, rfl⟩

theorem witness_OnlyResetClearsStartedAndValid :
    ∃ s t : State, s.capStarted = true ∧ s.valid = true ∧ step s = .next t :=
  ⟨{ armed with capStarted := true, moves := [.deviceReset] }, _, rfl, rfl, rfl⟩

theorem witness_StartCaptureSwapsRolesAndRestarts : (base 2).setupDone = true ∧ capturing.setupDone = true := ⟨rfl, rfl⟩

theorem witness_WaitCaptureEndsOnlyACompleteTransfer :
    (captured.setupDone = true ∧ captured.capStarted = true ∧ captured.ceBusy = false) ∧
      ((base 2).setupDone = true ∧ (base 2).capStarted = false) ∧ (capturing.setupDone = true ∧ capturing.ceBusy = true) ∧
      ∃ s : State, s.setupDone = true ∧ s.capStarted = false ∧ s.cfg.ok = true ∧ s.moves = [.fg] ∧ s.fgNext = [0x2#4] :=
  ⟨⟨rfl, rfl, rfl⟩, ⟨rfl, rfl⟩, ⟨rfl, rfl⟩, { base 2 with moves := [.fg], fgNext := [0x2#4] }, rfl, rfl, rfl, rfl, rfl⟩

theorem witness_WaitBeforeAnyStartIsStuckForEver :
    (base 2).setupDone = true ∧ (base 2).capStarted = false ∧ (∀ i ∈ [Instr.decode, .linkInit], i ≠ .startCapture) ∧
      ∃ t, execAll [.decode, .linkInit] (base 2) = .next t := ⟨rfl, rfl, by decide, _, rfl⟩

theorem witness_SecondWaitReturnsAtOnce :
    ∃ s : State, s.setupDone = true ∧ s.capStarted = true ∧ s.ceBusy = false ∧ s.seqEn = false :=
  ⟨{ captured with seqEn := false }, rfl, rfl, rfl, rfl⟩

/-- One place left in the queue; the queue exactly full; the sequencer disabled. -/
theorem witness_SeqPushAppendsTheDrawnWord :
    ∃ s t : State, (s.seqEn = true ∧ s.rxq.length = 3 ∧ s.rxq.length < s.cfg.fifoDepth) ∧
      (t.seqEn = true ∧ t.cfg.fifoDepth ≤ t.rxq.length) ∧ (base 2).seqEn = false :=
  ⟨{ capturing with rxq := [1#32, 2#32, 3#32] }, { capturing with rxq := [1#32, 2#32, 3#32, 4#32] },
    ⟨rfl, rfl, by decide⟩, ⟨rfl, by decide⟩, rfl⟩

/-- A word in the middle, the last word, no transfer, no word. -/
theorem witness_CeCopyMovesOneWord :
    (capturing.ceBusy = true ∧ capturing.rxq = [6#32, 7#32]) ∧
      (∃ s : State, s.ceBusy = true ∧ s.rxq = [6#32] ∧ s.ceIdx + 1 = 2 * s.cfg.spb) ∧
      captured.ceBusy = false ∧ captured.rxq = [] :=
  ⟨⟨rfl, rfl⟩, ⟨{ capturing with ceIdx := 3, rxq := [6#32] }, rfl, rfl, rfl⟩, rfl, rfl⟩

theorem witness_CaptureStreamLosesNoWord :
    capturing.ceBusy = true ∧ (∃ t, exec .ceCopy capturing = .next t) ∧ (∃ t, exec (.seqPush 8#32) capturing = .next t) ∧
      ∃ t, exec .decode capturing = .next t := ⟨rfl, ⟨_, rfl⟩, ⟨_, rfl⟩, _, rfl⟩

/-- Two words, pushed both before a copy, and pushed and copied in turn. -/
theorem witness_schedules :
    IsCaptureSchedule 4 [5#32, 6#32] [.seqPush 5#32, .seqPush 6#32, .ceCopy, .ceCopy] ∧
      IsCaptureSchedule 1 [5#32, 6#32] [.seqPush 5#32, .ceCopy, .seqPush 6#32, .ceCopy] :=
  ⟨⟨by simp [fitsQueue], rfl, rfl⟩, by simp [fitsQueue], rfl, rfl⟩

theorem witness_CaptureCycleFillsTheBackBuffer :
    (base 1).cfg.ok = true ∧ (base 1).setupDone = true ∧ [5#32, 6#32].length = 2 * (base 1).cfg.spb ∧
      IsCaptureSchedule (base 1).cfg.fifoDepth [5#32, 6#32] [.seqPush 5#32, .seqPush 6#32, .ceCopy, .ceCopy] :=
  ⟨rfl, rfl, rfl, witness_schedules.1⟩

theorem witness_NextCycleDecodesTheCapturedWords :
    (base 1).cfg.ok = true ∧ (base 1).setupDone = true ∧ [5#32, 6#32].length = 2 * (base 1).cfg.spb ∧
      IsCaptureSchedule (base 1).cfg.fifoDepth [5#32, 6#32] [.seqPush 5#32, .seqPush 6#32, .ceCopy, .ceCopy] ∧
      (0 : Nat) < (base 1).cfg.spb := ⟨rfl, rfl, rfl, witness_schedules.1, by decide⟩

/-- Two words that differ in the padding alone (UNP1, UNP3). -/
theorem witness_UnpackGivesThreeFields : (0xC0000000#32).extractLsb' 0 30 = (0x00000000#32).extractLsb' 0 30 := by decide

theorem witness_DecodePublishesTheFrontBuffer :
    (base 2).setupDone = true ∧ (1 : Nat) < (base 2).cfg.spb ∧ (2 : Nat) < 3 ∧ (2 * 6 - 1 : Nat) < (base 2).cfg.spb * 6 := by
  decide

/-- The target slot is the one in flight (DEC7), and it is not (DEC8). -/
theorem witness_DecodeMarksAnOverwrittenSend :
    ∃ s t : State, (s.setupDone = true ∧ s.inFlight = true ∧ s.blk = s.targetSlot) ∧
      (t.setupDone = true ∧ t.inFlight = true ∧ t.blk ≠ t.targetSlot) :=
  ⟨{ sending with cursor := 0 }, sending, ⟨rfl, rfl, rfl⟩, ⟨rfl, rfl, by decide⟩⟩

/-- DEC1 with padding bits set. -/
theorem witness_DecodeRoundTripsPackedSamples :
    ∃ s : State, s.setupDone = true ∧ (0 : Nat) < s.cfg.spb ∧
      s.bufWord s.front 1 = (0b11#2 ++ 512#10 ++ 511#10 ++ 1#10 : BitVec 32) ∧
      s.bufWord s.front 0 = (0b10#2 ++ 1#10 ++ 0#10 ++ 1023#10 : BitVec 32) :=
  ⟨{ base 1 with buf0 := [(0, 0x801003FF#32), (1, 0xE007FC01#32)] }, rfl, by decide, rfl, rfl⟩

/-- The smallest ring, and the last slot current. -/
theorem witness_DecodeSparesTheCurrentSlot :
    ∃ s t : State, s.cfg.ok = true ∧ s.cfg.ringN = 2 ∧ s.cursor = 1 ∧ s.cursor < s.cfg.ringN ∧ exec .decode s = .next t :=
  ⟨{ State.resetWith ⟨1, 2, 1, .slot⟩ 0 with cursor := 1 }, _, rfl, rfl, rfl, by decide, rfl⟩

theorem witness_RepeatedDecodeGivesIdenticalBlocks :
    (base 2).cfg.ok = true ∧ (base 2).cursor < (base 2).cfg.ringN ∧ (base 2).setupDone = true ∧
      (11 : Nat) < (base 2).cfg.spb * 6 := by decide

theorem witness_CopyAndDecodeCommute :
    capturing.setupDone = true ∧ capturing.ceBusy = true ∧ capturing.rxq ≠ [] ∧ capturing.ceDst = capturing.front.other := by
  decide

/-- A next state of an instruction of each agent. -/
theorem witness_OnlyOwnersWriteEachState :
    (∃ t, exec .startCapture capturing = .next t) ∧ (∃ t, exec (.seqPush 9#32) capturing = .next t) ∧
      (∃ t, exec .ceCopy capturing = .next t) ∧ ∃ t, exec .beginSend armed = .next t := ⟨⟨_, rfl⟩, ⟨_, rfl⟩, ⟨_, rfl⟩, _, rfl⟩

theorem witness_LinkOperationsIgnoreCapture :
    ∃ s t s' : State, agentOf .chunkAck = some .link ∧ s.SameLink t ∧ t.front ≠ s.front ∧ exec .chunkAck s = .next s' :=
  ⟨sending, { sending with front := .b1, ceBusy := true, capStarted := true, rxq := [1#32] }, _, rfl, rfl, by decide, rfl⟩

theorem witness_LinkInitCreatesAFreshSession : ∃ t, exec .linkInit sending = .next t ∧ sending.inFlight = true :=
  ⟨_, rfl, rfl⟩

theorem witness_IgnoredCommandsChangeNoSession :
    sending.cmdArmed = true ∧ (([] : List Byte).length ≠ 2 ∧ ([] : List Byte).length ≤ 255) ∧
      ((List.replicate 255 0x01#8).length ≠ 2 ∧ (List.replicate 255 0x01#8).length ≤ 255) ∧
      (0x00#8 : Byte) ≠ 0x01#8 ∧ (0x02#8 : Byte) ≠ 0x01#8 := by
  refine ⟨rfl, by decide, ?_, by decide, by decide⟩
  rw [List.length_replicate]
  decide

/-- N = 1 and N = 255. -/
theorem witness_GrantReplacesCreditAndAbandonsSend :
    (0x01#8 : Byte) ≠ 0#8 ∧ (0xFF#8 : Byte) ≠ 0#8 ∧ sending.cmdArmed = true ∧ armed.cmdArmed = true := by decide

theorem witness_UnarmedChannelReceivesNothing : (base 2).cmdArmed = false ∧ ∃ n, Instr.grantCredit 3#8 = .grantCredit n :=
  ⟨rfl, _, rfl⟩

theorem witness_EveryCommandRearmsTheChannel : sending.cmdArmed = true ∧ ∃ n, Instr.grantCredit 3#8 = .grantCredit n :=
  ⟨rfl, _, rfl⟩

/-- BS1 with credit 1, BS7 with credit 255, and BS2 to BS5 where it is not enabled. -/
theorem witness_BeginSendStartsTheCurrentBlock :
    (∃ s : State, s.inFlight = false ∧ s.credit = 1#8 ∧ s.credit.toNat > 0 ∧ s.curId = some 1 ∧ s.lastSent ≠ some 1) ∧
      (∃ s : State, s.inFlight = false ∧ s.credit = 255#8 ∧ s.credit.toNat > 0 ∧ s.curId = some 1 ∧ s.lastSent ≠ some 1) ∧
      sending.inFlight = true ∧ (base 1).credit = 0#8 ∧ (base 1).curId = none ∧
      ∃ s : State, s.inFlight = false ∧ s.curId = some 1 ∧ s.curId = s.lastSent :=
  ⟨⟨{ armed with credit := 1#8 }, rfl, rfl, by decide, rfl, by decide⟩,
    ⟨{ armed with credit := 255#8, lastSent := some 3 }, rfl, rfl, by decide, rfl, by decide⟩, rfl, rfl, rfl,
    { armed with lastSent := some 1 }, rfl, rfl, rfl⟩

/-- SENDING, ARMED and IDLE each occur. -/
theorem witness_NamedStateFollowsTheFlags :
    sending.inFlight = true ∧ (armed.inFlight = false ∧ armed.credit.toNat > 0) ∧
      ((base 1).inFlight = false ∧ (base 1).credit = 0#8) := by decide

theorem witness_CurrentIdentityFollowsTheMode :
    (base 1).valid = false ∧ (armed.valid = true ∧ armed.cfg.idMode = .slot) ∧
      ∃ s : State, s.valid = true ∧ s.cfg.idMode = .seq :=
  ⟨rfl, ⟨rfl, rfl⟩, { State.resetWith ⟨1, 4, 4, .seq⟩ 0 with valid := true }, rfl, rfl⟩

/-- The end of a block (`BB` = 12), a next chunk (`BB` = 384), a stray acknowledgement, nothing pending. -/
theorem witness_ChunkAckAdvancesTheSend :
    (∃ x rest, sending.xferQ = x :: rest ∧ sending.inFlight = true ∧
        sending.offset + min 64 (sending.cfg.blockBytes - sending.offset) ≥ sending.cfg.blockBytes) ∧
      (∃ s : State, (∃ x rest, s.xferQ = x :: rest) ∧ s.inFlight = true ∧
        s.offset + min 64 (s.cfg.blockBytes - s.offset) < s.cfg.blockBytes) ∧
      (∃ s : State, (∃ x rest, s.xferQ = x :: rest) ∧ s.inFlight = false) ∧ armed.xferQ = [] :=
  ⟨⟨_, _, rfl, rfl, by decide⟩, ⟨{ base 32 with inFlight := true, xferQ := [⟨1, [7#8], true⟩] }, ⟨_, _, rfl⟩, rfl, by decide⟩,
    ⟨{ sending with inFlight := false }, ⟨_, _, rfl⟩, rfl⟩, rfl⟩

/-- A pending transfer, with and without a mark. -/
theorem witness_StrayAckChangesNoSession :
    ∃ s t : State, (s.inFlight = false ∧ s.xferQ = [⟨1, [7#8], false⟩]) ∧ (t.inFlight = false ∧ t.xferQ = [⟨1, [7#8], true⟩]) :=
  ⟨{ armed with xferQ := [⟨1, [7#8], false⟩] }, { armed with xferQ := [⟨1, [7#8], true⟩] }, ⟨rfl, rfl⟩, rfl, rfl⟩

/-- ACK6, with a block in flight, and the stray form. -/
theorem witness_TaintedTransferReachesHostAsADraw :
    ∃ s t : State, (s.inFlight = true ∧ s.xferQ = [⟨1, [7#8], true⟩]) ∧ (t.inFlight = false ∧ t.xferQ = [⟨1, [7#8], true⟩]) :=
  ⟨{ sending with xferQ := [⟨1, [7#8], true⟩] }, { armed with xferQ := [⟨1, [7#8], true⟩] }, ⟨rfl, rfl⟩, rfl, rfl⟩

theorem witness_UndisturbedSendDeliversTheBlock : armed.cfg.ok = true ∧ armed.sendReady = true ∧ armed.xferQ = [] := by decide

theorem witness_StaleCompletionCountsForTheNewBlock :
    sending.cfg.ok = true ∧ sending.setupDone = true ∧ sending.cmdArmed = true ∧ sending.inFlight = true ∧
      (∃ x, sending.xferQ = [x]) ∧ (2#8 : Byte) ≠ 0#8 ∧ sending.cfg.idMode = .slot ∧
      sending.lastSent ≠ some ((sending.cursor + 1) % sending.cfg.ringN) :=
  ⟨rfl, rfl, rfl, rfl, ⟨_, rfl⟩, by decide, rfl, by decide⟩

theorem witness_NoSendWithoutANewBlock :
    (armed.sendReady = true ∧ ∃ t, exec .beginSend armed = .next t) ∧ sending.lastSent = sending.curId ∧
      (∀ i ∈ [Instr.chunkAck, .grantCredit 5#8], i ≠ .decode ∧ i ≠ .linkInit) ∧
      ∃ t, execAll [.chunkAck, .grantCredit 5#8] sending = .next t := ⟨⟨rfl, _, rfl⟩, rfl, by decide, _, rfl⟩

theorem witness_NCompleteSendsExhaustTheCredit :
    (base 1).cfg.ok = true ∧ (base 1).setupDone = true ∧ (0xFF#8 : Byte) ≠ 0#8 ∧ (0x01#8 : Byte) ≠ 0#8 := by decide

theorem witness_SlotIdentityAliasesAfterAFullRing :
    (∃ s : State, s.cfg.ok = true ∧ s.setupDone = true ∧ s.cfg.idMode = .slot ∧ s.valid = true ∧ s.cursor < s.cfg.ringN ∧
        s.lastSent = some s.cursor) ∧
      ∃ s : State, s.setupDone = true ∧ s.cfg.idMode = .seq ∧ s.inFlight = false ∧ s.credit ≠ 0#8 ∧
        s.lastSent = some s.pubCount :=
  ⟨⟨{ armed with lastSent := some 1 }, rfl, rfl, rfl, rfl, by decide, rfl⟩,
    { armed with cfg := ⟨1, 4, 4, .seq⟩, lastSent := some 1 }, rfl, rfl, rfl, by decide, rfl⟩

/-- The least admitted parameters. -/
theorem witness_ResetMeetsTheInvariants : Config.Params.ok ⟨1, 2, 1, .slot⟩ = true := by decide

theorem witness_ResetStateIsQuiet :
    (∃ s : State, s = State.resetWith ⟨1, 2, 1, .slot⟩ 0) ∧
      ∃ t, Instr.waitCapture ≠ .startCapture ∧ exec .waitCapture (base 2) = .next t := ⟨⟨_, rfl⟩, _, by decide, rfl⟩

theorem witness_DeviceResetGivesAResetState :
    ∃ s : State, s.cfg.ok = true ∧ s.moves = [.deviceReset] ∧ s.inFlight = true :=
  ⟨{ sending with moves := [.deviceReset] }, rfl, rfl, rfl⟩

/-- FG stuck in WAIT_CAPTURE, and FG's program exhausted. -/
theorem witness_QuiescentStateRests :
    ∃ s t : State, (s.cfg.ok = true ∧ s.Quiescent ∧ s.nextMove = .fg ∧ s.fgNext = [0x2#4]) ∧
      (t.cfg.ok = true ∧ t.Quiescent ∧ t.nextMove = .cmdRx ∧ t.fgNext = []) :=
  ⟨{ base 2 with fgNext := [0x2#4], moves := [.fg] }, { base 2 with moves := [.cmdRx] },
    ⟨rfl, ⟨.inr ⟨rfl, rfl, rfl⟩, rfl, rfl, rfl, rfl, rfl⟩, rfl, rfl⟩, ⟨rfl, ⟨.inl rfl, rfl, rfl, rfl, rfl, rfl⟩, rfl, rfl⟩⟩

/-! ## Witnesses of the invariants: states in which something is under way -/

/-- Every entry of a written storage space inside its range, a word still to come. -/
theorem witness_StepKeepsStorageInRange :
    ∃ s t : State, s.StorageInv ∧ s.buf0 ≠ [] ∧ s.ceBusy = true ∧ step s = .next t :=
  ⟨{ capturing with moves := [.ceCopy] }, _,
    ⟨fun b => by cases b <;> simp [State.buf, capturing, base, State.resetWith],
      fun b => by cases b <;> simp [State.buf, capturing, base, State.resetWith, Config.Params.bufLen],
      by simp [capturing, base, State.resetWith], by simp [capturing, base, State.resetWith],
      by simp [capturing, base, State.resetWith], fun _ => by decide⟩, by decide, rfl, rfl⟩

theorem witness_StepKeepsCaptureOwnership :
    ∃ s t : State, s.CaptureInv ∧ s.ceBusy = true ∧ step s = .next t :=
  ⟨{ capturing with moves := [.ceCopy] }, _,
    ⟨fun _ => rfl, fun _ => ⟨rfl, by decide⟩, fun _ h => (by cases h), by decide, fun h => (by cases h)⟩, rfl, rfl⟩

theorem sending_session : sending.SessionInv where
  cursor_range := by decide
  blk_range := by decide
  unpublished := fun h => by cases h
  published := fun _ => by decide
  sending := fun _ => ⟨by decide, by decide, by decide, by decide⟩
  offset_range := by decide
  slot_identity := fun _ n h => by cases h; decide
  slot_in_flight := fun _ _ => rfl
  seq_identity := fun h => by cases h
  unarmed := fun h => by cases h

theorem session_moves {s : State} (ms : List Move) (h : s.SessionInv) : State.SessionInv { s with moves := ms } :=
  ⟨h.cursor_range, h.blk_range, h.unpublished, h.published, h.sending, h.offset_range, h.slot_identity, h.slot_in_flight,
    h.seq_identity, h.unarmed⟩

theorem witness_StepKeepsSessionConsistent :
    ∃ s t : State, s.SessionInv ∧ s.inFlight = true ∧ step s = .next t :=
  ⟨{ sending with moves := [.ceCopy] }, _, session_moves _ sending_session, rfl, rfl⟩

theorem witness_StepKeepsUntaintedTransfersTrue :
    ∃ s t : State, s.SessionInv ∧ s.TransferInv ∧ s.xferQ.length = 1 ∧ step s = .next t :=
  ⟨{ sending with moves := [.ceCopy] }, _, session_moves _ sending_session,
    ⟨fun x hx => by obtain rfl := List.mem_singleton.1 hx; decide,
      fun x hx _ => by obtain rfl := List.mem_singleton.1 hx; exact ⟨0, rfl, by decide, rfl⟩⟩, rfl, rfl⟩

theorem witness_StepKeepsTheChunkInTransit :
    ∃ s t : State, s.InTransitInv ∧ s.inFlight = true ∧ step s = .next t :=
  ⟨{ sending with moves := [.ceCopy] }, _,
    ⟨fun _ => ⟨_, rfl, rfl, rfl, fun h => (by cases h), fun _ => rfl⟩⟩, rfl, rfl⟩

theorem witness_StepKeepsThePendingCommandArmed :
    ∃ s t : State, s.PendingInv ∧ s.cmdPending = some [0x01#8, 0x02#8] ∧ step s = .next t :=
  ⟨{ sending with cmdPending := some [0x01#8, 0x02#8], moves := [.cmdRx] }, _,
    ⟨fun _ => rfl, fun p h => by cases h; decide⟩, rfl, rfl⟩

/-! ## Witnesses of the progress statements: infinite fair runs -/

/-- A state, then a state at rest for ever. -/
def thenRest (s u : State) : Nat → State
  | 0 => s
  | _ + 1 => u

theorem thenRest_isRun {s u t v : State} (h0 : step s = .next t) (ht : u = { t with moves := u.moves })
    (h1 : step u = .next v) (hv : u = { v with moves := u.moves }) : IsRun (thenRest s u) := by
  intro n
  cases n with
  | zero => exact ⟨t, u.moves, h0, ht⟩
  | succ n => exact ⟨v, u.moves, h1, hv⟩

/-- A run whose first step takes the operation, and in which it is never enabled again, is fair to it. -/
theorem thenRest_fair {s u : State} {i : Instr} (hi : s.stepOp = some i) (hn : enabled i u = false) :
    WeaklyFair i (thenRest s u) := by
  intro n hen
  cases n with
  | zero => exact ⟨0, Nat.le_refl 0, hi⟩
  | succ n => exact absurd (hen (n + 1) (Nat.le_refl _)) (by rw [thenRest, hn]; decide)

/-- One word waits for CE, the last of its transfer; CE's move is next. -/
def lastCopy : State := { capturing with ceIdx := 3, rxq := [6#32], moves := [.ceCopy] }

/-- After the copy; CE's move, which has no step there, comes again and again. -/
def afterCopy : State := { lastCopy with buf0 := [(0, 5#32), (3, 6#32)], ceIdx := 4, ceBusy := false, rxq := [] }

theorem witness_FairCopyEngineMakesProgress :
    ∃ r : Nat → State, IsRun r ∧ WeaklyFair .ceCopy r ∧ (r 0).ceReady = true :=
  ⟨thenRest lastCopy afterCopy, thenRest_isRun rfl rfl rfl rfl, thenRest_fair rfl rfl, rfl⟩

/-- The published block may be sent; the streaming state machine's move is next. -/
def readyToSend : State := { armed with moves := [.beginSend] }

theorem witness_FairSenderBeginsTheSend :
    ∃ r : Nat → State, IsRun r ∧ WeaklyFair .beginSend r ∧ (r 0).sendReady = true :=
  ⟨thenRest readyToSend { beginSend readyToSend with moves := [.beginSend] }, thenRest_isRun rfl rfl rfl rfl,
    thenRest_fair rfl rfl, rfl⟩

end Slice0
end

section
/-! SUPPORT. Which agent's operation a request spells, what a step runs once its move is known, and the reasons of a refusal. -/

namespace Sys2Proof.Machine

/-! ## Which agent's operation a request spells -/

/-- A request is a foreground or a link operation, or a reserved code: the autonomous steps carry no encoding
(00_scope.md R13, 30_encoding.md R70, R71). -/
def HasPortAgent (i : Instr) : Prop := agentOf i = some .fg ∨ agentOf i = some .link ∨ agentOf i = none

theorem noOperand_ok {i j : Instr} {op : Op4} {payload : List Byte} (h : noOperand i op payload = .ok j) : j = i := by
  unfold noOperand at h
  split at h
  · exact (Except.ok.inj h).symm
  · cases h

@[simp] theorem agentOf_selectRow (payload : List Byte) : agentOf (selectRow payload) = some .link := by
  unfold selectRow
  repeat' split
  all_goals rfl

@[simp] theorem agentOf_ackRow (f : Bool) : agentOf (ackRow f) = some .link := by cases f <;> rfl

theorem hasPortAgent_of_noOperand {i j : Instr} {op : Op4} {payload : List Byte} (hi : HasPortAgent i)
    (h : noOperand i op payload = .ok j) : HasPortAgent j :=
  noOperand_ok h ▸ hi

theorem hasPortAgent_of_decodeOp {f : Bool} {op : Op4} {payload : List Byte} {i : Instr}
    (h : decodeOp f op payload = .ok i) : HasPortAgent i := by
  unfold decodeOp at h
  split at h
  next => exact hasPortAgent_of_noOperand (.inl rfl) h
  split at h
  next => exact hasPortAgent_of_noOperand (.inl rfl) h
  split at h
  next => exact hasPortAgent_of_noOperand (.inl rfl) h
  split at h
  next => exact hasPortAgent_of_noOperand (.inr (.inl rfl)) h
  split at h
  next =>
    split at h
    · exact Except.ok.inj h ▸ .inr (.inl (agentOf_selectRow payload))
    · cases h
  split at h
  next => exact hasPortAgent_of_noOperand (.inr (.inl (agentOf_ackRow f))) h
  next => exact hasPortAgent_of_noOperand (.inr (.inr rfl)) h

theorem hasPortAgent_of_decode {f : Bool} {bytes : List Byte} {i : Instr} (h : decode f bytes = .ok i) :
    HasPortAgent i := by
  cases bytes with
  | nil => cases h
  | cons b payload =>
    simp only [decode] at h
    split at h
    · exact hasPortAgent_of_decodeOp h
    · cases h

/-! ## What a step runs -/

theorem nextMove_of_moves {s : State} {m : Move} {ms : List Move} (h : s.moves = m :: ms) : s.nextMove = m := by
  simp [State.nextMove, h]

theorem takeMove_of_moves {s : State} {m : Move} {ms : List Move} (h : s.moves = m :: ms) :
    s.takeMove = { s with moves := ms } := by
  simp [State.takeMove, h]

/-- A move that brings an operation runs it on the state its request leaves. -/
theorem step_of_operation {s : State} {m : Move} {ms : List Move} {i : Instr} (hc : s.cfg.ok = true)
    (hm : s.moves = m :: ms) (hf : fetch m { s with moves := ms } = .operation i) :
    step s = exec i (issue m i { s with moves := ms }) := by
  simp only [step, hc, if_true, nextMove_of_moves hm, takeMove_of_moves hm, hf]

/-- A guard does not read the interleaving. -/
theorem enabled_moves (i : Instr) (s : State) (ms : List Move) : enabled i { s with moves := ms } = enabled i s := by
  cases i <;> rfl

theorem fetchRequest_of_agent {a : Agent} {f : Bool} {bytes : List Byte} {i : Instr} (hd : decode f bytes = .ok i)
    (ha : agentOf i = some a ∨ agentOf i = none) : fetchRequest a f bytes = .operation i := by
  simp only [fetchRequest, hd, if_pos ha]

/-- FG's move brings the operation its next code decodes to. -/
theorem fetch_fg {s : State} {op : Op4} {rest : List Op4} {i : Instr} (hn : s.fgNext = op :: rest)
    (hd : decode s.inFlight [opByte op] = .ok i) (ha : agentOf i = some .fg ∨ agentOf i = none) :
    fetch .fg s = .operation i := by
  simp only [fetch, hn, fetchRequest_of_agent hd ha]

/-- An operation FG issues is moved to the finished part of its program if it is enabled. -/
theorem issue_fg {s : State} {op : Op4} {rest : List Op4} (i : Instr) (hn : s.fgNext = op :: rest) :
    issue .fg i s = if enabled i s then { s with fgDone := s.fgDone ++ [op], fgNext := rest } else s := by
  simp [issue, retire, hn]

/-- A move with no pending request has none to retire. -/
theorem issue_of_retire_eq {m : Move} {s : State} (i : Instr) (h : retire m s = s) : issue m i s = s := by
  rw [issue, h, ite_self]

/-- An operation that comes as a move of its own runs on the state as it stands. -/
theorem step_of_autonomous {s : State} {m : Move} {ms : List Move} {i : Instr} (hc : s.cfg.ok = true)
    (hm : s.moves = m :: ms) (hf : ∀ t, fetch m t = .operation i) (hr : ∀ t, retire m t = t) :
    step s = exec i { s with moves := ms } := by
  rw [step_of_operation hc hm (hf _), issue_of_retire_eq i (hr _)]

/-! ## The reasons of a refusal -/

theorem foreground_refused {g : Bool} {act : State → State} {s : State} {r : Refusal}
    (h : foreground g act s = .refused r) : s.setupDone = false ∧ r = .beforeSetup := by
  unfold foreground at h
  split at h
  next => cases h
  next hs => exact ⟨Bool.eq_false_of_not_eq_true hs, by cases h; rfl⟩

/-- An instruction is refused as a reserved code, or as a foreground operation before the hardware setup
(60_exceptions.md R172). -/
theorem exec_refused {i : Instr} {s : State} {r : Refusal} (h : exec i s = .refused r) :
    (∃ op, i = .reserved op ∧ r = .reservedOp op) ∨
      (agentOf i = some .fg ∧ s.setupDone = false ∧ r = .beforeSetup) := by
  cases i with
  | startCapture | waitCapture | decode => exact .inr ⟨rfl, foreground_refused h⟩
  | linkInit | cmdBadLen | cmdBadOp | grantZero | grantCredit | chunkAck | chunkAckStray | seqPush | ceCopy | beginSend =>
    cases h
  | reserved op => exact .inl ⟨op, rfl, by cases h; rfl⟩

/-- The refusals of the operation port (log entries 15, 18). -/
def IsRequestRefusal (r : Refusal) : Prop := r = .wrongAgent ∨ ∃ e, r = .badRequest e

theorem wrongAgent_of_ite {p : Prop} [Decidable p] {i : Instr} {r : Refusal}
    (h : (if p then Fetched.operation i else .refusal .wrongAgent) = .refusal r) : r = .wrongAgent := by
  split at h <;> cases h
  rfl

theorem fetchRequest_refusal {a : Agent} {f : Bool} {bytes : List Byte} {r : Refusal}
    (h : fetchRequest a f bytes = .refusal r) : IsRequestRefusal r := by
  unfold fetchRequest at h
  split at h
  next e _ => exact .inr ⟨e, by cases h; rfl⟩
  next => exact .inl (wrongAgent_of_ite h)

theorem fetchPort_refusal {f : Bool} {bytes : List Byte} {r : Refusal} (h : fetchPort f bytes = .refusal r) :
    IsRequestRefusal r := by
  unfold fetchPort at h
  split at h
  next e _ => exact .inr ⟨e, by cases h; rfl⟩
  next => exact .inl (wrongAgent_of_ite h)

/-- A move is refused only for the request it brings. -/
theorem fetch_refusal {m : Move} {s : State} {r : Refusal} (h : fetch m s = .refusal r) : IsRequestRefusal r := by
  cases m with
  | fg | cmdRx =>
    simp only [fetch] at h
    split at h
    · exact fetchRequest_refusal h
    · cases h
  | linkInit =>
    simp only [fetch] at h
    split at h
    · cases h
    · exact fetchRequest_refusal h
  | chunkAck =>
    simp only [fetch] at h
    exact fetchRequest_refusal h
  | request bytes => exact fetchPort_refusal h
  | seqPush | ceCopy | beginSend | fgExtend | hostLinkUp | hostCommand | hwSetup | deviceReset => cases h

/-- A step refuses the parameters, the request its move brings, or the instruction it runs. -/
theorem step_refused {s : State} {r : Refusal} (h : step s = .refused r) :
    (s.cfg.ok = false ∧ r = .badParameters) ∨ IsRequestRefusal r ∨ ∃ i t, exec i t = .refused r := by
  unfold step at h
  split at h
  next =>
    cases hf : fetch s.nextMove s.takeMove with
    | nothing | environment => rw [hf] at h; cases h
    | operation i => rw [hf] at h; exact .inr (.inr ⟨i, _, h⟩)
    | refusal r' => rw [hf] at h; cases h; exact .inr (.inl (fetch_refusal hf))
  next hc => exact .inl ⟨Bool.eq_false_of_not_eq_true hc, by cases h; rfl⟩

theorem step_of_bad_parameters {s : State} (h : s.cfg.ok = false) : step s = .refused .badParameters := by
  simp [step, h]

/-- A step is refused for its parameters exactly when the check fails (00_scope.md R9). -/
theorem step_eq_badParameters_iff (s : State) : step s = .refused .badParameters ↔ s.cfg.ok = false := by
  refine ⟨fun h => ?_, step_of_bad_parameters⟩
  obtain ⟨hc, -⟩ | (hr | ⟨e, hr⟩) | ⟨i, t, hi⟩ := step_refused h
  · exact hc
  · cases hr
  · cases hr
  · obtain ⟨op, -, hr⟩ | ⟨-, -, hr⟩ := exec_refused hi <;> cases hr

/-- The check of the parameters fails exactly when a constraint of 00_scope.md R8 is broken. -/
theorem params_ok_eq_false_iff (p : Config.Params) :
    p.ok = false ↔ (p.spb < 1 ∨ p.ringN < 2 ∨ p.fifoDepth < 1) := by
  simp only [Config.Params.ok, Bool.and_eq_false_iff, decide_eq_false_iff_not, Nat.not_le, or_assoc]

end Sys2Proof.Machine
end

section
/-! PROOFS. The statements of 00_scope.md. -/

namespace Sys2Proof.Machine

/-- Settles O6: a request that is no link operation is FG's or a reserved code, so FG's move brings it, and issuing it
retires its code exactly when its guard holds. -/
theorem stepRunsForegroundOperation : Obligations.StepRunsForegroundOperation := by
  intro s ms op rest i hc hm hn hd hl
  have ha : agentOf i = some .fg ∨ agentOf i = none := (hasPortAgent_of_decode hd).imp_right (·.resolve_left hl)
  rw [step_of_operation hc hm (fetch_fg hn hd ha), issue_fg (s := { s with moves := ms }) i hn, enabled_moves]

/-- Settles O8: an autonomous move brings its operation in every state and has no request to retire. -/
theorem stepRunsAutonomousStep : Obligations.StepRunsAutonomousStep := by
  intro s ms hc
  refine ⟨fun w hm => ?_, fun hm => ?_, fun hm => ?_⟩
  · exact step_of_autonomous hc hm (fun _ => rfl) (fun _ => rfl)
  · exact step_of_autonomous hc hm (fun _ => rfl) (fun _ => rfl)
  · exact step_of_autonomous hc hm (fun _ => rfl) (fun _ => rfl)

/-- Settles O10: neither the request a move brings nor an instruction is refused for the parameters, so only the check of
them is. -/
theorem badParametersAreRefused : Obligations.BadParametersAreRefused := by
  intro s
  rw [step_eq_badParameters_iff, params_ok_eq_false_iff]

end Sys2Proof.Machine
end

section
/-! SUPPORT. What a step leaves of the block's own state, and the streaming session's invariant under each operation. -/

namespace Sys2Proof.Machine

/-! ## A step on the block's own state -/

/-- `t` agrees with `s` on everything but the agents outside the block and the model's bookkeeping of them: FG's program, what
the host has pending, the hardware setup, the moves to come and the draws. -/
def State.SameBlock (s t : State) : Prop :=
  t = { s with
    setupDone := t.setupDone, fgDone := t.fgDone, fgNext := t.fgNext, initPending := t.initPending,
    cmdPending := t.cmdPending, moves := t.moves, draws := t.draws }

theorem State.SameBlock.trans {s t u : State} (hst : s.SameBlock t) (htu : t.SameBlock u) : s.SameBlock u := by
  unfold State.SameBlock at *
  rw [htu, hst]

theorem State.SameBlock.cfg_eq {s t : State} (h : s.SameBlock t) : t.cfg = s.cfg := by
  rw [State.SameBlock] at h; rw [h]

theorem State.SameBlock.capStarted_eq {s t : State} (h : s.SameBlock t) : t.capStarted = s.capStarted := by
  rw [State.SameBlock] at h; rw [h]

theorem State.SameBlock.valid_eq {s t : State} (h : s.SameBlock t) : t.valid = s.valid := by
  rw [State.SameBlock] at h; rw [h]

theorem sameBlock_takeMove (s : State) : s.SameBlock s.takeMove := by
  unfold State.takeMove
  split <;> rfl

theorem sameBlock_issue (m : Move) (i : Instr) (s : State) : s.SameBlock (issue m i s) := by
  unfold issue
  split
  · cases m <;> rfl
  · rfl

theorem sameBlock_environmentMove {m : Move} (s : State) (h : m ≠ .deviceReset) : s.SameBlock (environmentMove m s) := by
  obtain ⟨hm, -⟩ | ⟨ops, k, c, d, he, -⟩ := environmentMove_cases m s
  · exact absurd hm h
  · rw [he]; rfl

/-- What a step does to the block's own state: nothing, the device reset, or the effect of an enabled instruction. The state
`u` in which it does so is `s` with the move taken and the request retired. -/
theorem step_block_cases {s t : State} (h : step s = .next t) :
    s.SameBlock t ∨
      (∃ u, s.SameBlock u ∧ s.nextMove = .deviceReset ∧ t = deviceReset u) ∨
      ∃ i u, s.SameBlock u ∧ enabled i u = true ∧ t = effect i u := by
  have htake := sameBlock_takeMove s
  obtain ⟨-, ⟨-, rfl⟩ | ⟨-, rfl⟩ | ⟨i, -, hi⟩⟩ := step_next h
  · exact .inl htake
  · by_cases hm : s.nextMove = .deviceReset
    · exact .inr (.inl ⟨_, htake, hm, by rw [hm]; rfl⟩)
    · exact .inl (htake.trans (sameBlock_environmentMove _ hm))
  · have hu := htake.trans (sameBlock_issue s.nextMove i s.takeMove)
    obtain ⟨he, ht⟩ | ⟨-, rfl⟩ := exec_next hi
    · exact .inr (.inr ⟨i, _, hu, he, ht⟩)
    · exact .inl hu

/-- CE_COPY's effect touches the buffers, the queue and the copy engine's position only (40_capture.md R109). -/
theorem copyWord_frame (s : State) :
    copyWord s = { s with
      buf0 := (copyWord s).buf0, buf1 := (copyWord s).buf1, rxq := (copyWord s).rxq, ceIdx := (copyWord s).ceIdx,
      ceBusy := (copyWord s).ceBusy } := by
  unfold copyWord
  split
  · rfl
  · rw [writeBuf_frame]

/-! ## The parameters, `cap_started` and `valid` under an instruction -/

@[simp] theorem effect_cfg (i : Instr) (s : State) : (effect i s).cfg = s.cfg := by
  cases i with
  | chunkAck => simp only [effect]; split <;> simp
  | startCapture | waitCapture | decode | linkInit | cmdBadLen | cmdBadOp | grantZero | grantCredit | chunkAckStray |
    seqPush | ceCopy | beginSend | reserved => simp [effect]

/-- No instruction clears `cap_started` (10_state.md R25). -/
theorem effect_capStarted {i : Instr} {s : State} (h : s.capStarted = true) : (effect i s).capStarted = true := by
  cases i with
  | startCapture => rfl
  | chunkAck => simp only [effect]; split <;> simpa
  | waitCapture | decode | linkInit | cmdBadLen | cmdBadOp | grantZero | grantCredit | chunkAckStray | seqPush | ceCopy |
    beginSend | reserved => simpa [effect]

/-- No instruction clears `valid` (10_state.md R28). -/
theorem effect_valid {i : Instr} {s : State} (h : s.valid = true) : (effect i s).valid = true := by
  cases i with
  | decode => rfl
  | chunkAck => simp only [effect]; split <;> simpa
  | startCapture | waitCapture | linkInit | cmdBadLen | cmdBadOp | grantZero | grantCredit | chunkAckStray | seqPush |
    ceCopy | beginSend | reserved => simpa [effect]

/-! ## The identity of the current block -/

theorem curId_of_not_valid {s : State} (hv : s.valid = false) : s.curId = none := by
  simp [State.curId, hv]

theorem curId_of_slot {s : State} (hv : s.valid = true) (hm : s.cfg.idMode = .slot) : s.curId = some s.cursor := by
  simp [State.curId, hv, hm]

theorem curId_of_seq {s : State} (hv : s.valid = true) (hm : s.cfg.idMode = .seq) : s.curId = some s.pubCount := by
  simp [State.curId, hv, hm]

/-- BEGIN_SEND's guard asks for a credit and for a published block (42_streaming.md R152). -/
theorem sendReady_imp {s : State} (h : s.sendReady = true) : s.credit ≠ 0#8 ∧ s.valid = true ∧ s.curId ≠ none := by
  simp only [State.sendReady, Bool.and_eq_true, bne_iff_ne, ne_eq, Option.isSome_iff_ne_none] at h
  obtain ⟨⟨⟨-, hcredit⟩, hid⟩, -⟩ := h
  refine ⟨hcredit, ?_, hid⟩
  by_contra hv
  exact hid (curId_of_not_valid (Bool.eq_false_of_not_eq_true hv))

/-! ## The sizes the parameters admit, and the chunks inside a block -/

/-- The check of the parameters is the constraints of 00_scope.md R8. -/
theorem params_ok_iff (p : Config.Params) : p.ok = true ↔ 1 ≤ p.spb ∧ 2 ≤ p.ringN ∧ 1 ≤ p.fifoDepth := by
  simp only [Config.Params.ok, Bool.and_eq_true, decide_eq_true_eq, and_assoc]

theorem blockBytes_pos {p : Config.Params} (h : p.ok = true) : 0 < p.blockBytes := by
  obtain ⟨hspb, -⟩ := (params_ok_iff p).1 h
  simp only [Config.Params.blockBytes, Config.ch, Config.unit]
  omega

theorem ringN_pos {p : Config.Params} (h : p.ok = true) : 0 < p.ringN := by
  obtain ⟨-, hring, -⟩ := (params_ok_iff p).1 h
  omega

/-- A chunk never reaches past the end of the block (42_streaming.md R153). -/
theorem add_chunkLen_le {p : Config.Params} {offset : Nat} (h : offset ≤ p.blockBytes) :
    offset + chunkLen p offset ≤ p.blockBytes := by
  unfold chunkLen
  omega

/-- A chunk that does not end the block is a full one (42_streaming.md R153, R155). -/
theorem chunkLen_eq_chunk {p : Config.Params} {offset : Nat} (h : offset + chunkLen p offset < p.blockBytes) :
    chunkLen p offset = Config.chunk := by
  unfold chunkLen at *
  omega

/-! ## The streaming session under each operation -/

theorem sessionInv_of_sameBlock {s t : State} (h : s.SameBlock t) (hs : s.SessionInv) : t.SessionInv := by
  rw [State.SameBlock] at h
  rw [h]
  exact { hs with }

theorem armed_of_inFlight {s : State} (hs : s.SessionInv) (hf : s.inFlight = true) : s.cmdArmed = true := by
  by_contra ha
  obtain ⟨-, hnf, -⟩ := hs.unarmed (Bool.eq_false_of_not_eq_true ha)
  simp [hnf] at hf

theorem armed_of_credit {s : State} (hs : s.SessionInv) (hc : s.credit ≠ 0#8) : s.cmdArmed = true := by
  by_contra ha
  obtain ⟨hzero, -⟩ := hs.unarmed (Bool.eq_false_of_not_eq_true ha)
  exact hc hzero

theorem sessionInv_copyWord {s : State} (hs : s.SessionInv) : (copyWord s).SessionInv := by
  rw [copyWord_frame]
  exact { hs with }

/-- DECODE moves the cursor inside the ring and keeps the pending transfers' number (41_decoder.md R122, R124). -/
theorem sessionInv_decodeBlock {s : State} (hc : s.cfg.ok = true) (hs : s.SessionInv) : (decodeBlock s).SessionInv := by
  have hq : (decodeBlock s).xferQ = [] ↔ s.xferQ = [] := List.map_eq_nil_iff
  exact { hs with
    cursor_range := Nat.mod_lt _ (ringN_pos hc)
    unpublished := nofun
    published := fun _ => Nat.le_add_left 1 s.pubCount
    sending := fun hf => by simpa [hq] using hs.sending hf
    seq_identity := fun hm n hn => (hs.seq_identity hm n hn).imp_right Nat.le_succ_of_le
    unarmed := fun ha => by simpa [hq] using hs.unarmed ha }

/-- LINK_INIT ends the session, whatever it was (42_streaming.md R141). -/
theorem sessionInv_linkInit {s : State} (hs : s.SessionInv) : (linkInit s).SessionInv :=
  { hs with
    unpublished := fun hv => let ⟨hcount, hcursor, _⟩ := hs.unpublished hv; ⟨hcount, hcursor, rfl⟩
    sending := nofun
    offset_range := Nat.zero_le _
    slot_identity := nofun
    slot_in_flight := nofun
    seq_identity := nofun
    unarmed := nofun }

theorem sessionInv_rearm {s : State} (hs : s.SessionInv) : (rearm { s with cmdArmed := false }).SessionInv :=
  { hs with unarmed := nofun }

/-- A grant leaves no block in flight (42_streaming.md R146). -/
theorem sessionInv_rearm_grant {s : State} (n : Byte) (hs : s.SessionInv) :
    (rearm (grant n { s with cmdArmed := false })).SessionInv :=
  { hs with
    sending := nofun
    offset_range := Nat.zero_le _
    slot_in_flight := nofun
    unarmed := nofun }

/-- A completion with no block in flight leaves the session (42_streaming.md R156). -/
theorem sessionInv_completeTransfer {s : State} (hf : s.inFlight = false) (hs : s.SessionInv) :
    (completeTransfer s).SessionInv := by
  cases hq : s.xferQ with
  | nil => simpa [completeTransfer, hq] using hs
  | cons x rest =>
    rw [completeTransfer_cons hq]
    exact { hs with
      sending := fun h => by simp [hf] at h
      unarmed := fun ha => by
        obtain ⟨-, -, -, -, hnil⟩ := hs.unarmed ha
        simp [hq] at hnil }

/-- The acknowledgement of the block in flight: short of the block's end the next chunk starts at a chunk boundary and is
pending, and at its end nothing is in flight (42_streaming.md R155). -/
theorem sessionInv_advanceSend {s : State} (hf : s.inFlight = true) (hs : s.SessionInv) :
    (advanceSend (completeTransfer s)).SessionInv := by
  obtain ⟨hlt, hmod, hq, hid⟩ := hs.sending hf
  have ha : s.cmdArmed ≠ false := by simp [armed_of_inFlight hs hf]
  obtain ⟨x, rest, hq⟩ := List.exists_cons_of_ne_nil hq
  obtain ⟨hnext, he⟩ | ⟨-, he⟩ := advanceSend_cases (completeTransfer s)
  · rw [he, completeTransfer_cons hq]
    rw [completeTransfer_cfg, completeTransfer_offset] at hnext
    have hlen := chunkLen_eq_chunk hnext
    exact { hs with
      sending := fun _ => ⟨hnext, by simpa [hlen] using hmod, by simp [sendChunk_xferQ], hid⟩
      offset_range := hnext.le
      unarmed := fun h => absurd h ha }
  · rw [he, completeTransfer_cons hq]
    exact { hs with
      sending := nofun
      offset_range := add_chunkLen_le hlt.le
      slot_in_flight := nofun
      unarmed := fun h => absurd h ha }

/-- BEGIN_SEND records the current block's identity, starts at its first byte and leaves its first chunk pending
(42_streaming.md R152). -/
theorem sessionInv_beginSend {s : State} (hc : s.cfg.ok = true) (hr : s.sendReady = true) (hs : s.SessionInv) :
    (beginSend s).SessionInv := by
  obtain ⟨hcredit, hv, hid⟩ := sendReady_imp hr
  have hv' : s.valid ≠ false := by simp [hv]
  have ha : s.cmdArmed ≠ false := by simp [armed_of_credit hs hcredit]
  exact { hs with
    blk_range := hs.cursor_range
    unpublished := fun h => absurd h hv'
    sending := fun _ => ⟨blockBytes_pos hc, rfl, by simp [beginSend, sendChunk_xferQ], hid⟩
    offset_range := Nat.zero_le _
    slot_identity := fun hm n hn => Option.some.inj ((curId_of_slot hv hm).symm.trans hn) ▸ hs.cursor_range
    slot_in_flight := fun hm _ => curId_of_slot hv hm
    seq_identity := fun hm n hn =>
      Option.some.inj ((curId_of_seq hv hm).symm.trans hn) ▸ ⟨hs.published hv, Nat.le_refl _⟩
    unarmed := fun h => absurd h ha }

/-- An enabled instruction keeps the session consistent. -/
theorem sessionInv_effect {i : Instr} {s : State} (hc : s.cfg.ok = true) (he : enabled i s = true) (hs : s.SessionInv) :
    (effect i s).SessionInv := by
  cases i with
  | startCapture | waitCapture | seqPush => exact { hs with }
  | decode => exact sessionInv_decodeBlock hc hs
  | linkInit => exact sessionInv_linkInit hs
  | cmdBadLen | cmdBadOp | grantZero => exact sessionInv_rearm hs
  | grantCredit n => exact sessionInv_rearm_grant n hs
  | chunkAck =>
    simp only [effect]
    split
    next hf => exact sessionInv_advanceSend hf hs
    next hf => exact sessionInv_completeTransfer (Bool.eq_false_of_not_eq_true hf) hs
  | chunkAckStray =>
    simp only [enabled, Bool.and_eq_true, Bool.not_eq_true'] at he
    exact sessionInv_completeTransfer he.2 hs
  | ceCopy => exact sessionInv_copyWord hs
  | beginSend => exact sessionInv_beginSend hc he hs
  | reserved => exact hs

/-- The device reset leaves no published block and no session (70_reset_and_hazards.md R190). -/
theorem sessionInv_deviceReset {s : State} (hc : s.cfg.ok = true) : (deviceReset s).SessionInv where
  cursor_range := ringN_pos hc
  blk_range := ringN_pos hc
  unpublished := fun _ => ⟨rfl, rfl, rfl⟩
  published := nofun
  sending := nofun
  offset_range := Nat.zero_le _
  slot_identity := nofun
  slot_in_flight := nofun
  seq_identity := nofun
  unarmed := fun _ => ⟨rfl, rfl, rfl, rfl, rfl⟩

end Sys2Proof.Machine
end

section
/-! PROOFS. The statements of 10_state.md. -/

namespace Sys2Proof.Machine

/-- Settles O50: a step leaves the session's fields, resets the device or runs an enabled instruction, and each of the three
keeps the session consistent. -/
theorem stepKeepsSessionConsistent : Obligations.StepKeepsSessionConsistent := by
  intro s t hs h
  have hc : s.cfg.ok = true := (step_next h).1
  obtain hst | ⟨u, hsu, -, rfl⟩ | ⟨i, u, hsu, he, rfl⟩ := step_block_cases h
  · exact sessionInv_of_sameBlock hst hs
  · exact sessionInv_deviceReset (hsu.cfg_eq ▸ hc)
  · exact sessionInv_effect (hsu.cfg_eq ▸ hc) he (sessionInv_of_sameBlock hsu hs)

/-- Settles O12: of the three things a step can do to the block, only the device reset clears a flag, and none changes the
parameters. -/
theorem onlyResetClearsStartedAndValid : Obligations.OnlyResetClearsStartedAndValid := by
  intro s t h
  obtain hst | ⟨u, hsu, hm, rfl⟩ | ⟨i, u, hsu, -, rfl⟩ := step_block_cases h
  · exact ⟨hst.cfg_eq, fun hs => .inl (hst.capStarted_eq.trans hs), fun hs => .inl (hst.valid_eq.trans hs)⟩
  · exact ⟨hsu.cfg_eq, fun _ => .inr hm, fun _ => .inr hm⟩
  · exact ⟨(effect_cfg i u).trans hsu.cfg_eq, fun hs => .inl (effect_capStarted (hsu.capStarted_eq.trans hs)),
      fun hs => .inl (effect_valid (hsu.valid_eq.trans hs))⟩

/-- Settles O37: `in_flight` decides SENDING, and without it a zero credit decides between IDLE and ARMED. -/
theorem namedStateFollowsTheFlags : Obligations.NamedStateFollowsTheFlags := by
  intro s
  have hpos : s.credit.toNat > 0 ↔ s.credit ≠ 0#8 := by bv_omega
  unfold State.ssmState
  rw [hpos]
  cases s.inFlight with
  | true => simp
  | false => by_cases hc : s.credit = 0#8 <;> simp [hc]

/-- Settles O38, by the three cases of `curId`. -/
theorem currentIdentityFollowsTheMode : Obligations.CurrentIdentityFollowsTheMode :=
  fun _ => ⟨curId_of_not_valid, curId_of_slot, curId_of_seq⟩

end Sys2Proof.Machine
end

section
/-! SUPPORT. The storage spaces and the capture discipline under each operation: CE_COPY and DECODE said as one equation each,
what LINK leaves alone, and the two invariants kept. -/

namespace Sys2Proof.Machine

/-! ## CE_COPY and DECODE as equations -/

/-- CE_COPY's guard: a transfer runs and a word is queued (40_capture.md R109). -/
theorem ceReady_iff (s : State) : s.ceReady = true ↔ s.ceBusy = true ∧ ∃ w rest, s.rxq = w :: rest := by
  simp [State.ceReady, ← List.ne_nil_iff_exists_cons]

/-- SEQ_PUSH's guard: the sequencer is enabled and the queue has room (40_capture.md R107). -/
theorem seqReady_iff (s : State) : s.seqReady = true ↔ s.seqEn = true ∧ s.rxq.length < s.cfg.fifoDepth := by
  simp [State.seqReady]

/-- CE_COPY's effect before its write: the head leaves the queue and the engine's position moves on (40_capture.md R109). -/
def advanceCopy (rest : List Word) (s : State) : State :=
  { s with
    rxq := rest
    ceIdx := s.ceIdx + 1
    ceBusy := if s.ceIdx + 1 = s.cfg.bufLen then false else s.ceBusy }

theorem copyWord_cons {s : State} {w : Word} {rest : List Word} (h : s.rxq = w :: rest) :
    copyWord s = (advanceCopy rest s).writeBuf s.ceDst s.ceIdx w := by
  unfold copyWord
  rw [h]
  rfl

/-- After a copy the transfer runs on exactly if its next index is not the buffer's length (40_capture.md R109). -/
theorem advanceCopy_busy_iff {s : State} (rest : List Word) (hb : s.ceBusy = true) :
    (advanceCopy rest s).ceBusy = true ↔ s.ceIdx + 1 ≠ s.cfg.bufLen := by
  simp [advanceCopy, hb]

/-- A DECODE reads the front buffer only, so a write to the other buffer passes it (20_memory.md R61, R69). -/
theorem decodeBlock_writeBuf {s : State} {b : BufId} (hb : b ≠ s.front) (j : Nat) (w : Word) :
    decodeBlock (s.writeBuf b j w) = (decodeBlock s).writeBuf b j w := by
  have hread : (s.writeBuf b j w).bufWord s.front = s.bufWord s.front := by
    funext k
    rw [bufWord_writeBuf, if_neg (fun h => hb h.1.symm)]
  have hblock := congrArg (blockEntries s.cfg.spb) hread
  simp only [decodeBlock]
  cases b <;> exact congrArg (fun es => publish _ ((taintCheck _ _).writeSlot _ es)) hblock

/-- A DECODE neither reads nor writes the queue and the copy engine's position (60_exceptions.md R180). -/
theorem decodeBlock_advanceCopy (rest : List Word) (s : State) :
    decodeBlock (advanceCopy rest s) = advanceCopy rest (decodeBlock s) := rfl

/-- With a word queued and the back buffer as destination, a copy and a DECODE commute (20_memory.md R69). -/
theorem decodeBlock_copyWord {s : State} {w : Word} {rest : List Word} (hq : s.rxq = w :: rest)
    (hd : s.ceDst = s.front.other) : decodeBlock (copyWord s) = copyWord (decodeBlock s) := by
  have hne : s.ceDst ≠ (advanceCopy rest s).front := hd ▸ other_ne s.front
  rw [copyWord_cons hq, decodeBlock_writeBuf hne, decodeBlock_advanceCopy,
    copyWord_cons (s := decodeBlock s) ((decodeBlock_rxq s).trans hq), decodeBlock_ceDst, decodeBlock_ceIdx]

/-! ## What LINK leaves alone -/

theorem completeTransfer_frame (s : State) :
    completeTransfer s = { s with
      xferQ := (completeTransfer s).xferQ, hostRx := (completeTransfer s).hostRx, draws := (completeTransfer s).draws } := by
  unfold completeTransfer
  split <;> rfl

theorem advanceSend_frame (s : State) :
    advanceSend s = { s with
      inFlight := (advanceSend s).inFlight, offset := (advanceSend s).offset, xferQ := (advanceSend s).xferQ,
      outputs := (advanceSend s).outputs, draws := (advanceSend s).draws } := by
  obtain ⟨-, h⟩ | ⟨-, h⟩ := advanceSend_cases s
  · rw [h]; rfl
  · rw [h]

/-- LINK's operations write the session, the pending transfers, and the records and draws of the link side only
(60_exceptions.md R180). -/
theorem effect_link_frame {i : Instr} (s : State) (h : agentOf i = some .link) :
    effect i s = { s with
      credit := (effect i s).credit, inFlight := (effect i s).inFlight, blk := (effect i s).blk,
      offset := (effect i s).offset, lastSent := (effect i s).lastSent, cmdArmed := (effect i s).cmdArmed,
      tainted := (effect i s).tainted, xferQ := (effect i s).xferQ, outputs := (effect i s).outputs,
      hostRx := (effect i s).hostRx, draws := (effect i s).draws } := by
  cases i with
  | linkInit | cmdBadLen | cmdBadOp | grantZero | grantCredit | beginSend => rfl
  | chunkAckStray => simp only [effect]; rw [completeTransfer_frame]
  | chunkAck =>
    simp only [effect]
    split
    · rw [advanceSend_frame, completeTransfer_frame]
    · rw [completeTransfer_frame]
  | startCapture | waitCapture | decode | seqPush | ceCopy | reserved => cases h

/-! ## The storage spaces under each operation -/

theorem bufLen_pos {p : Config.Params} (h : p.ok = true) : 0 < p.bufLen := by
  obtain ⟨hspb, -⟩ := (params_ok_iff p).1 h
  unfold Config.Params.bufLen
  omega

/-- A slot of the ring lies inside the ring space. -/
theorem ringIndex_zero_add_slotLen_le {p : Config.Params} {t : Nat} (h : t < p.ringN) :
    ringIndex p t 0 + p.slotLen ≤ p.ringN * p.slotLen := by
  have := Nat.mul_le_mul_right p.slotLen (Nat.succ_le_of_lt h)
  rwa [Nat.succ_mul] at this

theorem storageInv_of_sameBlock {s t : State} (h : s.SameBlock t) (hs : s.StorageInv) : t.StorageInv := by
  rw [State.SameBlock] at h
  rw [h]
  exact { hs with }

/-- A write inside a capture buffer keeps the storage spaces (20_memory.md R50). -/
theorem storageInv_writeBuf {s : State} {j : Nat} (b : BufId) (w : Word) (hj : j < s.cfg.bufLen) (hs : s.StorageInv) :
    (s.writeBuf b j w).StorageInv := by
  have hbuf (c : BufId) : (s.writeBuf b j w).buf c = if c = b then Memory.write (s.buf b) j w else s.buf c := by
    by_cases h : c = b
    · subst h; simp [State.writeBuf]
    · simp [State.writeBuf, setBuf_buf_other s _ h, h]
  have hcfg : (s.writeBuf b j w).cfg = s.cfg := setBuf_cfg ..
  refine ⟨fun c => ?_, fun c x hx => ?_, ?_, ?_, ?_, ?_⟩
  · rw [hbuf]
    split
    · exact Memory.write_wf (hs.buf_wf b) j w
    · exact hs.buf_wf c
  · rw [hbuf] at hx
    rw [hcfg]
    split at hx
    · obtain rfl | hx := Memory.mem_write hx
      · exact hj
      · exact hs.buf_range b x hx
    · exact hs.buf_range c x hx
  · simpa [State.writeBuf] using hs.ring_wf
  · simpa [State.writeBuf] using hs.ring_range
  · simpa [State.writeBuf] using hs.ring_sample
  · simpa [State.writeBuf] using hs.write_range

/-- Filling a slot of the ring with 10-bit samples keeps the storage spaces (10_state.md R26). -/
theorem storageInv_writeSlot {s : State} {t : Nat} {es : List Entry} (ht : t < s.cfg.ringN)
    (hl : es.length = s.cfg.slotLen) (hv : ∀ x ∈ es, x.toNat < 1024) (hs : s.StorageInv) :
    (s.writeSlot t es).StorageInv :=
  { hs with
    ring_wf := Memory.writeFrom_wf hs.ring_wf _ _
    ring_range := fun c hc => by
      obtain ⟨-, hlt, -⟩ | hc := Memory.mem_writeFrom hc
      · exact (hl ▸ hlt).trans_le (ringIndex_zero_add_slotLen_le ht)
      · exact hs.ring_range c hc
    ring_sample := fun c hc => by
      obtain ⟨-, -, hmem⟩ | hc := Memory.mem_writeFrom hc
      · exact hv _ hmem
      · exact hs.ring_sample c hc }

/-- CE writes at an index below `BUFLEN`, and runs on only while the next index is below it too (40_capture.md R109). -/
theorem storageInv_copyWord {s : State} (hr : s.ceReady = true) (hs : s.StorageInv) : (copyWord s).StorageInv := by
  obtain ⟨hbusy, w, rest, hq⟩ := (ceReady_iff s).1 hr
  have hlt := hs.write_range hbusy
  have hadvance : (advanceCopy rest s).StorageInv :=
    { hs with write_range := fun h => lt_of_le_of_ne hlt ((advanceCopy_busy_iff rest hbusy).1 h) }
  rw [copyWord_cons hq]
  exact storageInv_writeBuf _ _ hlt hadvance

/-- DECODE fills one slot of the ring with 10-bit samples (41_decoder.md R122). -/
theorem storageInv_decodeBlock {s : State} (hc : s.cfg.ok = true) (hs : s.StorageInv) : (decodeBlock s).StorageInv := by
  have htaint : (taintCheck s.targetSlot s).StorageInv := { hs with }
  have hslot : s.targetSlot < (taintCheck s.targetSlot s).cfg.ringN := Nat.mod_lt _ (ringN_pos hc)
  have hfill := storageInv_writeSlot hslot (blockEntries_length s.cfg.spb (s.bufWord s.front))
    (fun _ => blockEntries_lt) htaint
  exact { hfill with }

/-- An enabled instruction keeps the storage spaces. -/
theorem storageInv_effect {i : Instr} {s : State} (hc : s.cfg.ok = true) (he : enabled i s = true) (hs : s.StorageInv) :
    (effect i s).StorageInv := by
  cases i with
  | startCapture => exact { hs with write_range := fun _ => bufLen_pos hc }
  | decode => exact storageInv_decodeBlock hc hs
  | ceCopy => exact storageInv_copyWord he hs
  | waitCapture | seqPush | reserved => exact { hs with }
  | linkInit | cmdBadLen | cmdBadOp | grantZero | grantCredit | chunkAck | chunkAckStray | beginSend =>
    rw [effect_link_frame s rfl]
    exact { hs with }

/-- The device reset leaves the storage spaces unwritten (70_reset_and_hazards.md R190). -/
theorem storageInv_deviceReset (s : State) : (deviceReset s).StorageInv where
  buf_wf := fun b => by cases b <;> exact List.Pairwise.nil
  buf_range := fun b => by cases b <;> exact nofun
  ring_wf := List.Pairwise.nil
  ring_range := nofun
  ring_sample := nofun
  write_range := nofun

/-! ## The capture discipline under each operation -/

theorem captureInv_of_sameBlock {s t : State} (h : s.SameBlock t) (hs : s.CaptureInv) : t.CaptureInv := by
  rw [State.SameBlock] at h
  rw [h]
  exact { hs with }

/-- START_CAPTURE gives CE the buffer that leaves the front role, from index 0 on (40_capture.md R101). -/
theorem captureInv_startCapture {s : State} (hc : s.cfg.ok = true) : (startCapture s).CaptureInv where
  back := fun _ => (other_other s.front).symm
  busy := fun _ => ⟨rfl, bufLen_pos hc⟩
  done := nofun
  fifo := Nat.zero_le _
  unstarted := nofun

/-- A push finds room in the queue, and the sequencer enabled only after a START_CAPTURE (40_capture.md R107). -/
theorem captureInv_seqPush {s : State} (w : Word) (hr : s.seqReady = true) (hs : s.CaptureInv) :
    (effect (.seqPush w) s).CaptureInv := by
  obtain ⟨hen, hroom⟩ := (seqReady_iff s).1 hr
  exact { hs with
    fifo := by simpa [effect] using hroom
    unstarted := fun h => by
      obtain ⟨hoff, -⟩ := hs.unstarted h
      simp [hoff] at hen }

/-- A copy runs only after a START_CAPTURE, and ends the transfer exactly at `BUFLEN` (40_capture.md R109). -/
theorem captureInv_copyWord {s : State} (hr : s.ceReady = true) (hs : s.CaptureInv) : (copyWord s).CaptureInv := by
  obtain ⟨hbusy, w, rest, hq⟩ := (ceReady_iff s).1 hr
  obtain ⟨hstarted, hlt⟩ := hs.busy hbusy
  have hfifo := hs.fifo
  rw [hq, List.length_cons] at hfifo
  have hadvance : (advanceCopy rest s).CaptureInv :=
    { hs with
      busy := fun h => ⟨hstarted, lt_of_le_of_ne hlt ((advanceCopy_busy_iff rest hbusy).1 h)⟩
      done := fun _ h => by
        by_contra hne
        simp [(advanceCopy_busy_iff rest hbusy).2 hne] at h
      fifo := Nat.le_of_succ_le hfifo
      unstarted := fun h => by simp [advanceCopy, hstarted] at h }
  rw [copyWord_cons hq, writeBuf_frame]
  exact { hadvance with }

/-- An enabled instruction keeps the capture discipline. -/
theorem captureInv_effect {i : Instr} {s : State} (hc : s.cfg.ok = true) (he : enabled i s = true) (hs : s.CaptureInv) :
    (effect i s).CaptureInv := by
  cases i with
  | startCapture => exact captureInv_startCapture hc
  | waitCapture => exact { hs with unstarted := fun h => (hs.unstarted h).imp_left fun _ => rfl }
  | seqPush w => exact captureInv_seqPush w he hs
  | ceCopy => exact captureInv_copyWord he hs
  | decode | reserved => exact { hs with }
  | linkInit | cmdBadLen | cmdBadOp | grantZero | grantCredit | chunkAck | chunkAckStray | beginSend =>
    rw [effect_link_frame s rfl]
    exact { hs with }

/-- After the device reset nothing of a capture runs (70_reset_and_hazards.md R190). -/
theorem captureInv_deviceReset (s : State) : (deviceReset s).CaptureInv where
  back := nofun
  busy := nofun
  done := nofun
  fifo := Nat.zero_le _
  unstarted := fun _ => ⟨rfl, rfl, rfl⟩

/-! ## The bytes of an entry -/

theorem blockByte_even (s : State) (slot e : Nat) :
    s.blockByte slot (2 * e) = (s.ringEntry slot e).extractLsb' 0 8 := by
  simp [State.blockByte]

theorem blockByte_odd (s : State) (slot e : Nat) :
    s.blockByte slot (2 * e + 1) = (s.ringEntry slot e).extractLsb' 8 8 := by
  simp [State.blockByte, show (2 * e + 1) / 2 = e by omega]

end Sys2Proof.Machine
end

section
/-! PROOFS. The statements of 20_memory.md. -/

namespace Sys2Proof.Machine

/-- Settles O48: a step leaves the storage spaces and CE's position, resets the device or runs an enabled instruction, and
each of the three keeps the spaces in range. -/
theorem stepKeepsStorageInRange : Obligations.StepKeepsStorageInRange := by
  intro s t hs h
  have hc : s.cfg.ok = true := (step_next h).1
  obtain hst | ⟨u, -, -, rfl⟩ | ⟨i, u, hsu, he, rfl⟩ := step_block_cases h
  · exact storageInv_of_sameBlock hst hs
  · exact storageInv_deviceReset u
  · exact storageInv_effect (hsu.cfg_eq ▸ hc) he (storageInv_of_sameBlock hsu hs)

/-- Settles O49, by the same three cases of a step. -/
theorem stepKeepsCaptureOwnership : Obligations.StepKeepsCaptureOwnership := by
  intro s t hs h
  have hc : s.cfg.ok = true := (step_next h).1
  obtain hst | ⟨u, -, -, rfl⟩ | ⟨i, u, hsu, he, rfl⟩ := step_block_cases h
  · exact captureInv_of_sameBlock hst hs
  · exact captureInv_deviceReset u
  · exact captureInv_effect (hsu.cfg_eq ▸ hc) he (captureInv_of_sameBlock hsu hs)

/-- Settles O28: both operations are enabled in either order, since a DECODE leaves CE's guard as it was, and their effects
commute. -/
theorem copyAndDecodeCommute : Obligations.CopyAndDecodeCommute := by
  intro s hsetup hbusy hq hd
  obtain ⟨w, rest, hq⟩ := List.exists_cons_of_ne_nil hq
  have hcopy (u : State) (hu : u.setupDone = true) (hb : u.ceBusy = true) (hr : u.rxq = w :: rest) :
      exec .ceCopy u = .next (copyWord u) := by
    rw [exec_of_setup hu (fun _ h => by cases h), enabled, (ceReady_iff u).2 ⟨hb, w, rest, hr⟩, if_pos rfl, effect]
  have hdecode (u : State) (hu : u.setupDone = true) : exec .decode u = .next (decodeBlock u) := by
    rw [exec_of_setup hu (fun _ h => by cases h), enabled, if_pos rfl, effect]
  refine ⟨decodeBlock (copyWord s), ?_, ?_⟩
  · simp only [execAll, hcopy s hsetup hbusy hq, hdecode (copyWord s) (by simpa using hsetup)]
  · simp only [execAll, hdecode s hsetup, hcopy (decodeBlock s) (by simpa using hsetup) (by simpa using hbusy)
      (by simpa using hq), decodeBlock_copyWord hq hd]

/-- Settles O39: the two bytes of an entry are its bits 7:0 and 15:8. -/
theorem blockBytesAreLittleEndian : Obligations.BlockBytesAreLittleEndian := by
  intro s slot e
  have hlt := (s.ringEntry slot e).isLt
  rw [blockByte_even, blockByte_odd, BitVec.extractLsb'_toNat, BitVec.extractLsb'_toNat, Nat.shiftRight_zero,
    Nat.shiftRight_eq_div_pow]
  omega

end Sys2Proof.Machine
end

section
/-! SUPPORT. The decoder and the encoder against one table: the rows of 30_encoding.md R71, R72, R74, each with the operands it
admits; a request decodes exactly as its row. -/

namespace Sys2Proof.Machine

/-! ## The table of rows -/

/-- The rows of 30_encoding.md R71, R72, R74: code, payload and the instruction they spell, with `in_flight` telling the two
rows of code 0xA apart (42_streaming.md R155, R156). -/
inductive IsRow (inFlight : Bool) : Op4 → List Byte → Instr → Prop where
  | startCapture : IsRow inFlight 0x1#4 [] .startCapture
  | waitCapture : IsRow inFlight 0x2#4 [] .waitCapture
  | decode : IsRow inFlight 0x3#4 [] .decode
  | linkInit : IsRow inFlight 0x8#4 [] .linkInit
  | cmdBadLen {payload : List Byte} (hne : payload.length ≠ Config.cmdLen) (hle : payload.length ≤ Config.maxPayload) :
      IsRow inFlight 0x9#4 payload (.cmdBadLen payload)
  | cmdBadOp {byte0 byte1 : Byte} (hop : byte0 ≠ Config.opGrant) :
      IsRow inFlight 0x9#4 [byte0, byte1] (.cmdBadOp byte0 byte1)
  | grantZero : IsRow inFlight 0x9#4 [Config.opGrant, 0#8] .grantZero
  | grantCredit {n : Byte} (hn : n ≠ 0#8) : IsRow inFlight 0x9#4 [Config.opGrant, n] (.grantCredit n)
  | chunkAck (hf : inFlight = true) : IsRow inFlight 0xA#4 [] .chunkAck
  | chunkAckStray (hf : inFlight = false) : IsRow inFlight 0xA#4 [] .chunkAckStray
  | reserved {op : Op4} (hop : op.isAssigned = false) : IsRow inFlight op [] (.reserved op)

/-! ## The byte of a code -/

@[simp] theorem opByte_toNat (op : Op4) : (opByte op).toNat = op.toNat :=
  BitVec.toNat_setWidth_of_le (by decide)

@[simp] theorem opByte_setWidth (op : Op4) : (opByte op).setWidth 4 = op :=
  BitVec.setWidth_setWidth_of_le op (by decide)

theorem opByte_inj {op op' : Op4} : opByte op = opByte op' ↔ op = op' :=
  ⟨fun h => by simpa using congrArg (BitVec.setWidth 4) h, congrArg opByte⟩

theorem opByte_of_lt {b : Byte} (h : b.toNat < 16) : opByte (b.setWidth 4) = b :=
  BitVec.eq_of_toNat_eq (by simp [Nat.mod_eq_of_lt h])

theorem decode_opByte (f : Bool) (op : Op4) (payload : List Byte) :
    Sys2Proof.decode f (opByte op :: payload) = decodeOp f op payload := by
  simp [Sys2Proof.decode, op.isLt]

/-! ## The functions of the decoder -/

@[simp] theorem noOperand_nil (i : Instr) (op : Op4) : noOperand i op [] = .ok i := rfl

theorem noOperand_eq_ok_iff {i j : Instr} {op : Op4} {payload : List Byte} :
    noOperand i op payload = .ok j ↔ payload = [] ∧ j = i := by
  refine ⟨fun h => ⟨?_, noOperand_ok h⟩, fun ⟨hp, hj⟩ => by rw [hp, hj, noOperand_nil]⟩
  by_contra hne
  simp [noOperand, hne] at h

theorem selectRow_of_length_ne {payload : List Byte} (h : payload.length ≠ Config.cmdLen) :
    selectRow payload = .cmdBadLen payload :=
  if_pos h

theorem selectRow_pair (byte0 byte1 : Byte) :
    selectRow [byte0, byte1] =
      if byte0 ≠ Config.opGrant then .cmdBadOp byte0 byte1
      else if byte1 = 0#8 then .grantZero else .grantCredit byte1 := rfl

theorem decodeOp_cmd (f : Bool) {payload : List Byte} (h : payload.length ≤ Config.maxPayload) :
    decodeOp f 0x9#4 payload = .ok (selectRow payload) :=
  if_pos h

theorem decodeOp_ack (f : Bool) : decodeOp f 0xA#4 [] = .ok (ackRow f) := rfl

/-- A code is reserved when it is none of the six assigned ones (30_encoding.md R72). -/
theorem isAssigned_eq_false_iff {op : Op4} :
    op.isAssigned = false ↔ op ≠ 0x1#4 ∧ op ≠ 0x2#4 ∧ op ≠ 0x3#4 ∧ op ≠ 0x8#4 ∧ op ≠ 0x9#4 ∧ op ≠ 0xA#4 := by
  simp only [Op4.isAssigned, Bool.or_eq_false_iff, beq_eq_false_iff_ne, and_assoc, ne_eq]

theorem decodeOp_reserved (f : Bool) {op : Op4} (h : op.isAssigned = false) : decodeOp f op [] = .ok (.reserved op) := by
  obtain ⟨h1, h2, h3, h8, h9, hA⟩ := isAssigned_eq_false_iff.1 h
  simp only [decodeOp, if_neg h1, if_neg h2, if_neg h3, if_neg h8, if_neg h9, if_neg hA, noOperand_nil]

/-! ## Decoding is reading the table -/

theorem isRow_selectRow (f : Bool) {payload : List Byte} (h : payload.length ≤ Config.maxPayload) :
    IsRow f 0x9#4 payload (selectRow payload) := by
  by_cases hl : payload.length = Config.cmdLen
  · obtain ⟨byte0, byte1, rfl⟩ := List.length_eq_two.1 hl
    rw [selectRow_pair]
    split
    next hop => exact .cmdBadOp hop
    next hop =>
      obtain rfl := not_not.1 hop
      split
      next hn => exact hn ▸ .grantZero
      next hn => exact .grantCredit hn
  · rw [selectRow_of_length_ne hl]
    exact .cmdBadLen hl h

theorem isRow_ackRow (f : Bool) : IsRow f 0xA#4 [] (ackRow f) := by
  cases f
  · exact .chunkAckStray rfl
  · exact .chunkAck rfl

theorem isRow_of_decodeOp {f : Bool} {op : Op4} {payload : List Byte} {i : Instr} (h : decodeOp f op payload = .ok i) :
    IsRow f op payload i := by
  have of_noOperand {j : Instr} (hj : IsRow f op [] j) (h : noOperand j op payload = .ok i) : IsRow f op payload i := by
    obtain ⟨rfl, rfl⟩ := noOperand_eq_ok_iff.1 h
    exact hj
  unfold decodeOp at h
  split at h
  next h1 => exact of_noOperand (h1 ▸ .startCapture) h
  split at h
  next h2 => exact of_noOperand (h2 ▸ .waitCapture) h
  split at h
  next h3 => exact of_noOperand (h3 ▸ .decode) h
  split at h
  next h8 => exact of_noOperand (h8 ▸ .linkInit) h
  split at h
  next h9 =>
    split at h
    next hl => exact h9 ▸ Except.ok.inj h ▸ isRow_selectRow f hl
    next => cases h
  split at h
  next hA => exact of_noOperand (hA ▸ isRow_ackRow f) h
  next h1 h2 h3 h8 h9 hA => exact of_noOperand (.reserved (isAssigned_eq_false_iff.2 ⟨h1, h2, h3, h8, h9, hA⟩)) h

theorem decodeOp_of_isRow {f : Bool} {op : Op4} {payload : List Byte} {i : Instr} (h : IsRow f op payload i) :
    decodeOp f op payload = .ok i := by
  cases h with
  | startCapture | waitCapture | decode | linkInit => rfl
  | cmdBadLen hne hle => rw [decodeOp_cmd f hle, selectRow_of_length_ne hne]
  | cmdBadOp hop => rw [decodeOp_cmd f (by simp [Config.maxPayload]), selectRow_pair, if_pos hop]
  | grantZero => rfl
  | grantCredit hn =>
    rw [decodeOp_cmd f (by simp [Config.maxPayload]), selectRow_pair, if_neg (not_not.2 rfl), if_neg hn]
  | chunkAck hf | chunkAckStray hf => rw [decodeOp_ack, hf]; rfl
  | reserved hop => exact decodeOp_reserved f hop

theorem decode_of_isRow {f : Bool} {op : Op4} {payload : List Byte} {i : Instr} (h : IsRow f op payload i) :
    Sys2Proof.decode f (opByte op :: payload) = .ok i :=
  (decode_opByte f op payload).trans (decodeOp_of_isRow h)

/-- A request decodes to an instruction exactly when it is a row's code and payload. -/
theorem decode_eq_ok_iff {f : Bool} {bs : List Byte} {i : Instr} :
    Sys2Proof.decode f bs = .ok i ↔ ∃ op payload, bs = opByte op :: payload ∧ IsRow f op payload i := by
  constructor
  · intro h
    cases bs with
    | nil => cases h
    | cons b payload =>
      simp only [Sys2Proof.decode] at h
      split at h
      next hb => exact ⟨b.setWidth 4, payload, by rw [opByte_of_lt hb], isRow_of_decodeOp h⟩
      next => cases h
  · rintro ⟨op, payload, rfl, hrow⟩
    exact decode_of_isRow hrow

/-! ## Encoding is writing the table -/

/-- An instruction's operands are ones its row admits, and the code 0xA is read by `in_flight`. -/
def Admissible (f : Bool) (i : Instr) : Prop :=
  i.wf = true ∧ (i = .chunkAck → f = true) ∧ (i = .chunkAckStray → f = false)

/-- The row of an instruction: it is admissible, and its encoding is the row's code and payload. -/
theorem admissible_and_encode_of_isRow {f : Bool} {op : Op4} {payload : List Byte} {i : Instr}
    (h : IsRow f op payload i) : Admissible f i ∧ encode i = some (opByte op :: payload) := by
  cases h with
  | startCapture | waitCapture | decode | linkInit | grantZero => exact ⟨⟨rfl, nofun, nofun⟩, rfl⟩
  | cmdBadLen hne hle => exact ⟨⟨by simp [Instr.wf, hne, hle], nofun, nofun⟩, rfl⟩
  | cmdBadOp hop => exact ⟨⟨by simp [Instr.wf, hop], nofun, nofun⟩, rfl⟩
  | grantCredit hn => exact ⟨⟨by simp [Instr.wf, hn], nofun, nofun⟩, rfl⟩
  | chunkAck hf => exact ⟨⟨rfl, fun _ => hf, nofun⟩, rfl⟩
  | chunkAckStray hf => exact ⟨⟨rfl, nofun, fun _ => hf⟩, rfl⟩
  | reserved hop => exact ⟨⟨by simp [Instr.wf, hop], nofun, nofun⟩, rfl⟩

/-- Every admissible instruction that has an encoding stands in the table. -/
theorem isRow_of_encode {f : Bool} {i : Instr} {bs : List Byte} (ha : Admissible f i) (he : encode i = some bs) :
    ∃ op payload, bs = opByte op :: payload ∧ IsRow f op payload i := by
  obtain ⟨hwf, hack, hstray⟩ := ha
  cases i with
  | startCapture => cases he; exact ⟨_, _, rfl, .startCapture⟩
  | waitCapture => cases he; exact ⟨_, _, rfl, .waitCapture⟩
  | decode => cases he; exact ⟨_, _, rfl, .decode⟩
  | linkInit => cases he; exact ⟨_, _, rfl, .linkInit⟩
  | cmdBadLen payload =>
    obtain ⟨hne, hle⟩ : payload.length ≠ Config.cmdLen ∧ payload.length ≤ Config.maxPayload := by
      simpa [Instr.wf] using hwf
    cases he; exact ⟨_, _, rfl, .cmdBadLen hne hle⟩
  | cmdBadOp byte0 byte1 => cases he; exact ⟨_, _, rfl, .cmdBadOp (by simpa [Instr.wf] using hwf)⟩
  | grantZero => cases he; exact ⟨_, _, rfl, .grantZero⟩
  | grantCredit n => cases he; exact ⟨_, _, rfl, .grantCredit (by simpa [Instr.wf] using hwf)⟩
  | chunkAck => cases he; exact ⟨_, _, rfl, .chunkAck (hack rfl)⟩
  | chunkAckStray => cases he; exact ⟨_, _, rfl, .chunkAckStray (hstray rfl)⟩
  | seqPush | ceCopy | beginSend => cases he
  | reserved op => cases he; exact ⟨_, _, rfl, .reserved (by simpa [Instr.wf] using hwf)⟩

/-! ## A placed table word -/

/-- A word of at most 8 bits that decodes is a code alone. -/
theorem requestOfTableWord_code {nbits w : Nat} {op : Op4} {payload : List Byte} (hn : nbits ≤ 8) (hw : w < 2 ^ nbits)
    (h : requestOfTableWord nbits w = opByte op :: payload) : w = op.toNat ∧ payload = [] := by
  have hlt : w < 2 ^ 8 := hw.trans_le (Nat.pow_le_pow_right (by decide) hn)
  rw [requestOfTableWord, if_pos hn] at h
  obtain ⟨hb, hp⟩ := List.cons.inj h
  refine ⟨?_, hp.symm⟩
  rw [← opByte_toNat, ← hb, BitVec.toNat_ofNat, Nat.mod_eq_of_lt hlt]

/-- A wider word that decodes is a packet: the request of a CMD_RX. -/
theorem requestOfTableWord_packet {nbits w : Nat} {b : Byte} {payload : List Byte} (hn : ¬ nbits ≤ 8)
    (h : requestOfTableWord nbits w = b :: payload) : b = opByte 0x9#4 := by
  rw [requestOfTableWord, if_neg hn] at h
  split at h
  · exact (List.cons.inj h).1.symm
  · cases h

/-- Codes below 0x8 are FG's, the others LINK's, and a reserved code is neither's (30_encoding.md R71). -/
theorem agentOf_ne_of_isRow {f : Bool} {op : Op4} {payload : List Byte} {i : Instr} (h : IsRow f op payload i) :
    agentOf i ≠ if op.toNat < 8 then some .link else some .fg := by
  cases h with
  | reserved => split <;> nofun
  | startCapture | waitCapture | decode | linkInit | cmdBadLen | cmdBadOp | grantZero | grantCredit | chunkAck |
    chunkAckStray => nofun

/-- A guard reads the block's own state only. -/
theorem enabled_of_sameBlock {s t : State} (h : s.SameBlock t) (i : Instr) : enabled i t = enabled i s := by
  rw [State.SameBlock] at h
  rw [h]
  cases i <;> rfl

/-- A placed request whose operation is enabled runs next, its event retired. -/
theorem step_of_placed {s t : State} {m : Move} {ms : List Move} {i : Instr} (hc : s.cfg.ok = true) (hst : s.SameBlock t)
    (hm : t.moves = m :: ms) (hf : fetch m { t with moves := ms } = .operation i) (he : enabled i s = true) :
    step t = exec i (retire m { t with moves := ms }) := by
  have het : enabled i t = true := (enabled_of_sameBlock hst i).trans he
  rw [step_of_operation (hst.cfg_eq ▸ hc) hm hf, issue, enabled_moves, if_pos het]

theorem withRequest_reserved (s : State) {op : Op4} (h : op.isAssigned = false) :
    s.withRequest [opByte op] = { s with moves := .request [opByte op] :: s.moves } := by
  obtain ⟨-, -, -, h8, h9, hA⟩ := isAssigned_eq_false_iff.1 h
  simp [State.withRequest, opByte_inj, h8, h9, hA]

/-- A code placed for FG runs next, and stays behind in FG's record only. -/
theorem step_withFgOp {s : State} {op : Op4} {i : Instr} (hc : s.cfg.ok = true)
    (hd : Sys2Proof.decode s.inFlight [opByte op] = .ok i) (ha : agentOf i = some .fg ∨ agentOf i = none)
    (he : enabled i s = true) : step (s.withFgOp op) = exec i { s with fgDone := s.fgDone ++ [op] } :=
  step_of_placed (m := .fg) hc rfl rfl (fetch_fg rfl hd ha) he

/-- A command placed as LINK's next event takes the place of a pending one and is consumed as it runs. -/
theorem step_withRequest_cmd {s : State} {payload : List Byte} {i : Instr} (hc : s.cfg.ok = true)
    (hd : Sys2Proof.decode s.inFlight (opByte 0x9#4 :: payload) = .ok i) (ha : agentOf i = some .link ∨ agentOf i = none)
    (he : enabled i s = true) :
    step (s.withRequest (opByte 0x9#4 :: payload)) = exec i { s with cmdPending := none } :=
  step_of_placed (m := .cmdRx) hc rfl rfl (fetchRequest_of_agent hd ha) he

/-- Any other request placed as LINK's next event leaves nothing behind. -/
theorem step_withRequest_of_ne_cmd {s : State} {op : Op4} {payload : List Byte} {i : Instr} (hc : s.cfg.ok = true)
    (hrow : IsRow s.inFlight op payload i) (hop : op ≠ 0x9#4) (ha : agentOf i ≠ some .fg) (he : enabled i s = true) :
    step (s.withRequest (opByte op :: payload)) = exec i s := by
  have hd := decode_of_isRow hrow
  cases hrow with
  | startCapture | waitCapture | decode => exact absurd rfl ha
  | linkInit => exact step_of_placed (m := .linkInit) hc rfl rfl (fetchRequest_of_agent hd (.inl rfl)) he
  | cmdBadLen | cmdBadOp | grantZero | grantCredit => exact absurd rfl hop
  | chunkAck | chunkAckStray =>
    exact step_of_placed (m := .chunkAck) hc rfl rfl (fetchRequest_of_agent hd (.inl rfl)) he
  | reserved hr =>
    rw [withRequest_reserved s hr]
    exact step_of_placed (m := .request [opByte op]) hc rfl rfl (by simp only [fetch, fetchPort, hd]; rfl) he

end Sys2Proof.Machine
end

section
/-! PROOFS. The statements of 30_encoding.md. -/

namespace Sys2Proof.Machine

/-- Settles O1: an admissible instruction's encoding is its row's code and payload, and those decode to it. -/
theorem decodeGivesBackEncodedInstruction : Obligations.DecodeGivesBackEncodedInstruction :=
  fun _ _ _ hwf hack hstray he => decode_eq_ok_iff.2 (isRow_of_encode ⟨hwf, hack, hstray⟩ he)

/-- Settles O2: bytes that decode are a row's code and payload, which are the encoding of the row's instruction. -/
theorem decodedRequestIsItsOwnEncoding : Obligations.DecodedRequestIsItsOwnEncoding := by
  intro f bs i h
  obtain ⟨op, payload, rfl, hrow⟩ := decode_eq_ok_iff.1 h
  obtain ⟨⟨hwf, hack, hstray⟩, he⟩ := admissible_and_encode_of_isRow hrow
  exact ⟨hwf, he, hack, hstray⟩

/-- Settles O4: the row of a payload is the one `selectRow` picks, and a payload of length 2 is a pair. -/
theorem commandPayloadSelectsRowInOrder : Obligations.CommandPayloadSelectsRowInOrder := by
  intro f payload hle
  have hdecode : Sys2Proof.decode f (0x09#8 :: payload) = .ok (selectRow payload) :=
    (decode_opByte f 0x9#4 payload).trans (decodeOp_cmd f hle)
  refine ⟨fun hne => by rw [hdecode, selectRow_of_length_ne hne], fun h2 => ?_⟩
  obtain ⟨byte0, byte1, rfl⟩ := List.length_eq_two.1 h2
  refine ⟨byte0, byte1, rfl, ?_⟩
  have hgrant : byte0 ≠ Config.opGrant ↔ byte0.toNat ≠ 1 := not_congr BitVec.toNat_inj.symm
  have hzero : byte1 = 0#8 ↔ byte1.toNat = 0 := BitVec.toNat_inj.symm
  simp only [hdecode, selectRow_pair, hgrant, hzero]

/-- Settles O3: each request is a row of the table. -/
theorem writtenOutRequestsDecode : Obligations.WrittenOutRequestsDecode := by
  intro f
  have badLen (payload : List Byte) (hne : payload.length ≠ 2) (hle : payload.length ≤ 255) :
      Sys2Proof.decode f (0x09#8 :: payload) = .ok (.cmdBadLen payload) := decode_of_isRow (.cmdBadLen hne hle)
  have badOp (byte0 byte1 : Byte) (hop : byte0 ≠ 0x01#8) :
      Sys2Proof.decode f [0x09#8, byte0, byte1] = .ok (.cmdBadOp byte0 byte1) := decode_of_isRow (.cmdBadOp hop)
  have credit (n : Byte) (hn : n ≠ 0#8) : Sys2Proof.decode f [0x09#8, 0x01#8, n] = .ok (.grantCredit n) :=
    decode_of_isRow (.grantCredit hn)
  exact ⟨decode_of_isRow .startCapture, decode_of_isRow .waitCapture, decode_of_isRow .decode, decode_of_isRow .linkInit,
    badLen _ (by decide) (by decide), badLen _ (by decide) (by decide), badLen _ (by decide) (by decide),
    badOp _ _ (by decide), badOp _ _ (by decide), badOp _ _ (by decide),
    decode_of_isRow .grantZero, credit _ (by decide), credit _ (by decide), credit _ (by decide),
    decode_of_isRow (.chunkAck rfl), decode_of_isRow (.chunkAckStray rfl)⟩

/-- Settles O5: the ten codes are the unassigned ones, and a reserved instruction has no meaning. -/
theorem reservedCodesAreRefused : Obligations.ReservedCodesAreRefused := by
  intro f op s h
  have hop : op.isAssigned = false := by
    rcases h with rfl | rfl | rfl | rfl | rfl | rfl | rfl | rfl | rfl | rfl <;> rfl
  exact ⟨decode_of_isRow (.reserved hop), rfl⟩

/-- Settles O9: a word of up to 8 bits is a code, placed for FG below 0x8 and for LINK from there on; a wider one is a packet,
placed as LINK's command. -/
theorem placedTableWordRunsNext : Obligations.PlacedTableWordRunsNext := by
  intro s nbits w i hc hw hd he
  obtain ⟨op, payload, hbytes, hrow⟩ := decode_eq_ok_iff.1 hd
  have hagent := agentOf_ne_of_isRow hrow
  have hport := hasPortAgent_of_decode hd
  rw [hbytes] at hd
  unfold State.withFetchWord State.withTableWord
  rw [hbytes]
  by_cases hn : nbits ≤ 8
  · obtain ⟨rfl, rfl⟩ := requestOfTableWord_code hn hw hbytes
    simp only [hn, true_and, BitVec.ofNat_toNat, BitVec.setWidth_eq]
    split
    next hlt =>
      rw [if_pos hlt] at hagent
      exact step_withFgOp hc hd (hport.imp_right (·.resolve_left hagent)) he
    next hge =>
      rw [if_neg hge] at hagent
      split
      next h9 => exact step_withRequest_of_ne_cmd hc hrow (fun h => h9 (by rw [h]; rfl)) hagent he
      next h9 =>
        obtain rfl : op = 0x9#4 := BitVec.toNat_inj.1 (not_not.1 h9)
        exact step_withRequest_cmd hc hd (hport.resolve_left hagent) he
  · obtain rfl := opByte_inj.1 (requestOfTableWord_packet hn hbytes)
    simp only [hn, false_and, if_false]
    exact step_withRequest_cmd hc hd (hport.resolve_left hagent) he

end Sys2Proof.Machine
end

section
/-! SUPPORT. The capture side, operation by operation: what a sequence of operations keeps, the stream of words, the copy, and
what a step runs. -/

namespace Sys2Proof.Machine

/-! ## Instructions and sequences of them -/

/-- A foreground operation after the hardware setup has its effect where its guard holds, and none where it does not
(00_scope.md R12). -/
theorem exec_of_fg {i : Instr} {s : State} (hs : s.setupDone = true) (ha : agentOf i = some .fg) :
    exec i s = .next (if enabled i s then effect i s else s) :=
  exec_of_setup hs fun op h => by rw [h] at ha; cases ha

/-- An operation of SEQ, CE or LINK needs no hardware setup: it has its effect where its guard holds, and none where it does
not (00_scope.md R12). -/
theorem exec_of_not_fg {i : Instr} {a : Agent} (s : State) (ha : agentOf i = some a) (hne : a ≠ .fg) :
    exec i s = .next (if enabled i s then effect i s else s) := by
  cases i with
  | startCapture | waitCapture | decode => cases ha; exact absurd rfl hne
  | reserved => cases ha
  | linkInit | cmdBadLen | cmdBadOp | grantZero | grantCredit | chunkAck | chunkAckStray | seqPush | ceCopy | beginSend => rfl

/-- A sequence of operations whose first one answers a next state goes on from there. -/
theorem execAll_cons {i : Instr} {is : List Instr} {s t : State} (h : exec i s = .next t) :
    execAll (i :: is) s = execAll is t := by
  rw [execAll, h]

/-- What each of some operations keeps, every sequence of them keeps. -/
theorem execAll_keeps {P : State → Prop} {is : List Instr} {s t : State}
    (hkeep : ∀ i ∈ is, ∀ u v, P u → exec i u = .next v → P v) (hs : P s) (h : execAll is s = .next t) : P t := by
  induction is generalizing s with
  | nil => cases h; exact hs
  | cons i is ih =>
    unfold execAll at h
    split at h
    next u hu => exact ih (fun j hj => hkeep j (List.mem_cons_of_mem i hj)) (hkeep i List.mem_cons_self s u hs hu) h
    next => cases h
    next => cases h

/-! ## `cap_started`, and WAIT_CAPTURE -/

/-- Only START_CAPTURE sets `cap_started` (10_state.md R25). -/
theorem effect_capStarted_of_ne_startCapture {i : Instr} (s : State) (hi : i ≠ .startCapture) :
    (effect i s).capStarted = s.capStarted := by
  cases i with
  | startCapture => exact absurd rfl hi
  | chunkAck | linkInit | cmdBadLen | cmdBadOp | grantZero | grantCredit | chunkAckStray | beginSend =>
    rw [effect_link_frame s rfl]
  | ceCopy => exact copyWord_capStarted s
  | waitCapture | decode | seqPush | reserved => rfl

/-- No instruction touches the flag of the hardware setup (70_reset_and_hazards.md R193). -/
theorem effect_setupDone (i : Instr) (s : State) : (effect i s).setupDone = s.setupDone := by
  cases i with
  | chunkAck | linkInit | cmdBadLen | cmdBadOp | grantZero | grantCredit | chunkAckStray | beginSend =>
    rw [effect_link_frame s rfl]
  | ceCopy => exact copyWord_setupDone s
  | startCapture | waitCapture | decode | seqPush | reserved => rfl

/-- WAIT_CAPTURE returns only after a START_CAPTURE and once its transfer has ended (40_capture.md R104). -/
theorem captureDone_iff (s : State) : s.captureDone = true ↔ s.capStarted = true ∧ s.ceBusy = false := by
  simp [State.captureDone]

/-- WAIT_CAPTURE without a complete transfer is stuck (40_capture.md R104, 00_scope.md R12). -/
theorem exec_waitCapture_stuck {s : State} (hs : s.setupDone = true) (hd : s.captureDone = false) :
    exec .waitCapture s = .next s := by
  rw [exec_of_fg hs rfl, enabled, hd, if_neg Bool.false_ne_true]

/-- WAIT_CAPTURE on a complete transfer disables the sequencer (40_capture.md R104). -/
theorem exec_waitCapture_done {s : State} (hs : s.setupDone = true) (hd : s.captureDone = true) :
    exec .waitCapture s = .next (effect .waitCapture s) := by
  rw [exec_of_fg hs rfl, enabled, hd, if_pos rfl]

/-! ## A copy, and the stream of words -/

/-- A copy writes the head of the queue at the engine's position and nothing else in the buffers (40_capture.md R109). -/
theorem bufWord_copyWord {s : State} {w : Word} {rest : List Word} (hq : s.rxq = w :: rest) (b : BufId) (j : Nat) :
    (copyWord s).bufWord b j = if b = s.ceDst ∧ j = s.ceIdx then w else s.bufWord b j := by
  rw [copyWord_cons hq, bufWord_writeBuf]
  rfl

/-- A copy takes the head off the queue and moves the engine on by one word (40_capture.md R109). -/
theorem copyWord_eq {s : State} {w : Word} {rest : List Word} (hq : s.rxq = w :: rest) :
    copyWord s = { advanceCopy rest s with buf0 := (copyWord s).buf0, buf1 := (copyWord s).buf1 } := by
  rw [copyWord_cons hq]
  exact writeBuf_frame _ _ _ _

theorem copyWord_ceIdx {s : State} {w : Word} {rest : List Word} (hq : s.rxq = w :: rest) :
    (copyWord s).ceIdx = s.ceIdx + 1 := by rw [copyWord_eq hq]; rfl

theorem copyWord_rxq {s : State} {w : Word} {rest : List Word} (hq : s.rxq = w :: rest) : (copyWord s).rxq = rest := by
  rw [copyWord_eq hq]; rfl

/-- The stream of the current transfer: the words copied so far, then the words queued (40_capture.md R110). -/
def State.stream (s : State) : List Word := (List.range s.ceIdx).map (s.bufWord s.ceDst) ++ s.rxq

theorem stream_length (s : State) : s.stream.length = s.ceIdx + s.rxq.length := by
  simp [State.stream]

/-- A copy moves a word from the queued part of the stream to the copied part. -/
theorem stream_copyWord {s : State} {w : Word} {rest : List Word} (hq : s.rxq = w :: rest) :
    (copyWord s).stream = s.stream := by
  have hold : (List.range s.ceIdx).map ((copyWord s).bufWord s.ceDst) = (List.range s.ceIdx).map (s.bufWord s.ceDst) :=
    List.map_congr_left fun j hj => by
      rw [bufWord_copyWord hq, if_neg fun h => (List.mem_range.1 hj).ne h.2]
  have hnew : (copyWord s).bufWord s.ceDst s.ceIdx = w := by rw [bufWord_copyWord hq, if_pos ⟨rfl, rfl⟩]
  rw [State.stream, State.stream, copyWord_ceIdx hq, copyWord_rxq hq, copyWord_ceDst, List.range_succ, List.map_append,
    hold, hq]
  simp [hnew]

/-- An enabled operation other than START_CAPTURE appends what it pushes to the stream, and no more (40_capture.md R110). -/
theorem stream_effect {i : Instr} {s : State} (hi : i ≠ .startCapture) (he : enabled i s = true) :
    (effect i s).stream = s.stream ++ (pushedWord i).toList := by
  cases i with
  | startCapture => exact absurd rfl hi
  | seqPush w => exact (List.append_assoc _ s.rxq [w]).symm
  | ceCopy =>
    obtain ⟨-, w, rest, hq⟩ := (ceReady_iff s).1 he
    exact (stream_copyWord hq).trans (List.append_nil _).symm
  | waitCapture | decode | reserved => exact (List.append_nil _).symm
  | linkInit | cmdBadLen | cmdBadOp | grantZero | grantCredit | chunkAck | chunkAckStray | beginSend =>
    rw [effect_link_frame s rfl]
    exact (List.append_nil _).symm

/-! ## A schedule of pushes and copies -/

/-- `t` agrees with `s` on all that pushes and copies leave alone: every field but the transfer's progress, the queue and the
draws, and the buffer that is not the transfer's. -/
def State.SameOutsideTransfer (s t : State) : Prop :=
  t = { s with
    buf0 := t.buf0, buf1 := t.buf1, ceIdx := t.ceIdx, ceBusy := t.ceBusy, seqPc := t.seqPc, rxq := t.rxq,
    draws := t.draws } ∧
  ∀ j, t.bufWord s.ceDst.other j = s.bufWord s.ceDst.other j

theorem State.SameOutsideTransfer.trans {s t u : State} (hst : s.SameOutsideTransfer t) (htu : t.SameOutsideTransfer u) :
    s.SameOutsideTransfer u := by
  obtain ⟨ht, hbuf⟩ := hst
  obtain ⟨hu, hbuf'⟩ := htu
  have hdst : t.ceDst = s.ceDst := by rw [ht]
  refine ⟨by rw [hu, ht], fun j => ?_⟩
  rw [← hbuf j, ← hdst, hbuf' j]

theorem sameOutsideTransfer_seqPush (w : Word) (s : State) : s.SameOutsideTransfer (effect (.seqPush w) s) :=
  ⟨rfl, fun _ => rfl⟩

theorem sameOutsideTransfer_copyWord {s : State} {w : Word} {rest : List Word} (hq : s.rxq = w :: rest) :
    s.SameOutsideTransfer (copyWord s) :=
  ⟨by rw [copyWord_frame], fun j => by rw [bufWord_copyWord hq, if_neg fun h => other_ne s.ceDst h.1]⟩

/-- A sequence that begins with an enabled operation of SEQ, CE or LINK goes on from its effect. -/
theorem execAll_cons_of_enabled {i : Instr} {is : List Instr} {a : Agent} {s : State} (ha : agentOf i = some a)
    (hne : a ≠ .fg) (he : enabled i s = true) : execAll (i :: is) s = execAll is (effect i s) :=
  execAll_cons (by rw [exec_of_not_fg s ha hne, if_pos he])

/-- A schedule that fits the queue and the transfer runs to its end: its pushes extend the stream, its copies move the engine
on (40_capture.md R110). -/
theorem execAll_schedule {is : List Instr} {s : State} (hc : s.cfg.ok = true) (hinv : s.CaptureInv)
    (hst : s.capStarted = true) (hen : s.seqEn = true) (hfit : fitsQueue s.cfg.fifoDepth s.rxq.length is)
    (hcopies : s.ceIdx + is.count .ceCopy ≤ s.cfg.bufLen) :
    ∃ t, execAll is s = .next t ∧ s.SameOutsideTransfer t ∧ t.CaptureInv ∧ t.ceIdx = s.ceIdx + is.count .ceCopy ∧
      t.stream = s.stream ++ is.filterMap pushedWord := by
  induction is generalizing s with
  | nil => exact ⟨s, rfl, ⟨rfl, fun _ => rfl⟩, hinv, rfl, (List.append_nil _).symm⟩
  | cons i is ih =>
    obtain ⟨w, rfl, hroom, hfit⟩ | ⟨rfl, hpos, hfit⟩ := hfit
    · have he : enabled (.seqPush w) s = true := (seqReady_iff s).2 ⟨hen, hroom⟩
      have hcount : (Instr.seqPush w :: is).count .ceCopy = is.count .ceCopy := List.count_cons_of_ne (by simp)
      rw [hcount] at hcopies
      obtain ⟨t, hrun, hsame, ht, hidx, hstream⟩ := ih (s := effect (.seqPush w) s) hc (captureInv_effect hc he hinv)
        hst hen (by simpa [effect] using hfit) hcopies
      refine ⟨t, ?_, (sameOutsideTransfer_seqPush w s).trans hsame, ht, ?_, ?_⟩
      · rw [execAll_cons_of_enabled rfl (by decide) he, hrun]
      · rw [hidx, hcount]; rfl
      · rw [hstream, stream_effect (i := .seqPush w) nofun he, List.append_assoc]; rfl
    · obtain ⟨w, rest, hq⟩ := List.exists_cons_of_length_pos hpos
      rw [List.count_cons_self] at hcopies
      have hbusy : s.ceBusy = true := by
        by_contra hb
        have := hinv.done hst (Bool.eq_false_of_not_eq_true hb)
        omega
      have he : enabled .ceCopy s = true := (ceReady_iff s).2 ⟨hbusy, w, rest, hq⟩
      obtain ⟨t, hrun, hsame, ht, hidx, hstream⟩ := ih (s := copyWord s) (by simpa using hc) (captureInv_effect hc he hinv)
        (by simpa using hst) (by simpa using hen) (by simpa [hq, copyWord_rxq hq] using hfit)
        (by rw [copyWord_ceIdx hq, copyWord_cfg]; omega)
      refine ⟨t, ?_, (sameOutsideTransfer_copyWord hq).trans hsame, ht, ?_, ?_⟩
      · rw [execAll_cons_of_enabled rfl (by decide) he, effect, hrun]
      · rw [hidx, copyWord_ceIdx hq, List.count_cons_self]; omega
      · rw [hstream, stream_copyWord hq]; rfl

/-- A capture cycle with a word for each element of the buffer: afterwards the transfer has ended and the stream is in the
transfer's buffer, in order (40_capture.md R103, R110). -/
theorem execAll_captureCycle {s : State} {ws : List Word} {is : List Instr} (hc : s.cfg.ok = true)
    (hs : s.setupDone = true) (hl : ws.length = s.cfg.bufLen) (hsched : IsCaptureSchedule s.cfg.fifoDepth ws is) :
    ∃ t, execAll (.startCapture :: is) s = .next t ∧ (startCapture s).SameOutsideTransfer t ∧ t.ceBusy = false ∧
      t.ceIdx = s.cfg.bufLen ∧ t.rxq = [] ∧ ∀ j, j < s.cfg.bufLen → t.bufWord s.front j = ws.getD j 0#32 := by
  obtain ⟨hfit, hpush, hcopy⟩ := hsched
  have hstart : exec .startCapture s = .next (startCapture s) := by rw [exec_of_fg hs rfl]; rfl
  obtain ⟨t, hrun, hsame, hinv, hidx, hstream⟩ := execAll_schedule (s := startCapture s) hc (captureInv_startCapture hc)
    rfl rfl hfit (by rw [hcopy, hl]; exact (Nat.zero_add _).le)
  have hframe := hsame.1
  have hcfg : t.cfg = s.cfg := by rw [hframe]; rfl
  have hdst : t.ceDst = s.front := by rw [hframe]; rfl
  replace hidx : t.ceIdx = s.cfg.bufLen := by rw [hidx, hcopy, hl]; exact Nat.zero_add _
  replace hstream : t.stream = ws := by rw [hstream, hpush]; rfl
  have hrxq : t.rxq = [] := List.eq_nil_of_length_eq_zero (by
    have := stream_length t
    rw [hstream, hl, hidx] at this
    omega)
  refine ⟨t, by rw [execAll_cons hstart, hrun], hsame, ?_, hidx, hrxq, fun j hj => ?_⟩
  · by_contra hb
    obtain ⟨-, hlt⟩ := hinv.busy (Bool.eq_true_of_not_eq_false hb)
    rw [hidx, hcfg] at hlt
    exact lt_irrefl _ hlt
  · rw [← hstream, State.stream, hrxq, hidx, hdst]
    simp [hj]

/-! ## The entries a DECODE publishes -/

/-- DECODE publishes the slot it fills (41_decoder.md R122). -/
theorem decodeBlock_cursor (s : State) : (decodeBlock s).cursor = s.targetSlot := rfl

/-- DECODE counts one publish (41_decoder.md R122). -/
theorem decodeBlock_pubCount (s : State) : (decodeBlock s).pubCount = s.pubCount + 1 := rfl

/-- DECODE fills its target slot from the front buffer and no other slot (41_decoder.md R122). -/
theorem ringEntry_decodeBlock {s : State} (slot : Nat) {e : Nat} (he : e < s.cfg.slotLen) :
    (decodeBlock s).ringEntry slot e =
      if slot = s.targetSlot then (blockEntries s.cfg.spb (s.bufWord s.front)).getD e 0#16 else s.ringEntry slot e :=
  ringEntry_writeSlot (taintCheck s.targetSlot s) s.targetSlot slot e _ (blockEntries_length _ _) he

/-- Entry c of a word's three is its bits 10c+9 down to 10c as a number (41_decoder.md R121, R122). -/
theorem unpackEntries_getD (w : Word) {c : Nat} (hc : c < 3) :
    ((unpackEntries w).getD c 0#16).toNat = w.toNat / 2 ^ (10 * c) % 1024 := by
  have hzext (f : Sample) : (f.setWidth 16).toNat = f.toNat := BitVec.toNat_setWidth_of_le (by decide)
  rw [← field_toNat]
  interval_cases c <;> exact hzext _

/-- Offsets 0 to 2 of a sample are the fields of its odd word (41_decoder.md R122). -/
theorem sampleEntries_getD_odd (f : Nat → Word) (i : Nat) {c : Nat} (hc : c < 3) :
    ((sampleEntries f i).getD c 0#16).toNat = (f (2 * i + 1)).toNat / 2 ^ (10 * c) % 1024 := by
  rw [sampleEntries, List.getD_append _ _ _ _ hc, unpackEntries_getD _ hc]

/-- Offsets 3 to 5 of a sample are the fields of its even word (41_decoder.md R122). -/
theorem sampleEntries_getD_even (f : Nat → Word) (i : Nat) {c : Nat} (hc : c < 3) :
    ((sampleEntries f i).getD (3 + c) 0#16).toNat = (f (2 * i)).toNat / 2 ^ (10 * c) % 1024 := by
  rw [sampleEntries, List.getD_append_right _ _ _ _ (Nat.le_add_right 3 c), unpackEntries_length, Nat.add_sub_cancel_left,
    unpackEntries_getD _ hc]

/-- Entry i × 6 + c of the slot a DECODE publishes is offset c of sample i of the front buffer (41_decoder.md R122). -/
theorem ringEntry_decodeBlock_sample {s : State} {i c : Nat} (hi : i < s.cfg.spb) (hc : c < 6) :
    (decodeBlock s).ringEntry s.targetSlot (i * 6 + c) = (sampleEntries (s.bufWord s.front) i).getD c 0#16 := by
  have hlt : i * 6 + c < s.cfg.slotLen := by simp only [Config.Params.slotLen, Config.ch]; omega
  rw [ringEntry_decodeBlock _ hlt, if_pos rfl]
  exact blockEntries_getD s.cfg.spb _ i c hi hc

/-- Both halves of a sample in the slot a DECODE publishes (41_decoder.md R122). -/
theorem decodedSample_toNat {s : State} {i c : Nat} (hi : i < s.cfg.spb) (hc : c < 3) :
    ((decodeBlock s).ringEntry s.targetSlot (i * 6 + c)).toNat =
        (s.bufWord s.front (2 * i + 1)).toNat / 2 ^ (10 * c) % 1024 ∧
      ((decodeBlock s).ringEntry s.targetSlot (i * 6 + (3 + c))).toNat =
        (s.bufWord s.front (2 * i)).toNat / 2 ^ (10 * c) % 1024 := by
  rw [ringEntry_decodeBlock_sample hi (by omega), ringEntry_decodeBlock_sample hi (by omega)]
  exact ⟨sampleEntries_getD_odd _ i hc, sampleEntries_getD_even _ i hc⟩

/-- On a complete transfer WAIT_CAPTURE, START_CAPTURE and DECODE run one after the other, and the state `u` the DECODE finds
has the buffers as they were and their roles swapped (40_capture.md R101, R104, R112). -/
theorem execAll_wait_start_decode {s : State} (hs : s.setupDone = true) (hd : s.captureDone = true) :
    ∃ u, execAll [.waitCapture, .startCapture, .decode] s = .next (decodeBlock u) ∧ u.cfg = s.cfg ∧
      u.cursor = s.cursor ∧ u.pubCount = s.pubCount ∧ u.front = s.front.other ∧ ∀ b j, u.bufWord b j = s.bufWord b j := by
  have hstart : exec .startCapture (effect .waitCapture s) = .next (startCapture (effect .waitCapture s)) :=
    exec_of_fg (by exact hs) rfl
  have hdecode : exec .decode (startCapture (effect .waitCapture s)) =
      .next (decodeBlock (startCapture (effect .waitCapture s))) := exec_of_fg (by exact hs) rfl
  refine ⟨startCapture (effect .waitCapture s), ?_, rfl, rfl, rfl, rfl, fun b _ => ?_⟩
  · rw [execAll_cons (exec_waitCapture_done hs hd), execAll_cons hstart, execAll_cons hdecode, execAll]
  · cases b <;> rfl

/-! ## What a step runs, on the block's own state -/

/-- A step that takes up an operation runs it on a state that agrees with `s` on the block. -/
theorem exec_of_step {s t : State} {i : Instr} (h : step s = .next t) (hi : s.stepOp = some i) :
    ∃ u, s.SameBlock u ∧ exec i u = .next t := by
  obtain ⟨-, ⟨hn, -⟩ | ⟨hn, -⟩ | ⟨j, hj, hexec⟩⟩ := step_next h
  · rw [hi] at hn; cases hn
  · rw [hi] at hn; cases hn
  · obtain rfl : i = j := Option.some.inj (hi.symm.trans hj)
    exact ⟨_, (sameBlock_takeMove s).trans (sameBlock_issue s.nextMove i s.takeMove), hexec⟩

/-- A step that takes up no operation leaves the block as it was, unless it is the device reset. -/
theorem sameBlock_of_step {s t : State} (h : step s = .next t) (hi : s.stepOp = none) (hm : ¬ s.resetsNext) :
    s.SameBlock t := by
  obtain ⟨-, ⟨-, rfl⟩ | ⟨-, rfl⟩ | ⟨j, hj, -⟩⟩ := step_next h
  · exact sameBlock_takeMove s
  · exact (sameBlock_takeMove s).trans (sameBlock_environmentMove _ hm)
  · rw [hi] at hj; cases hj

/-! ## A word that waits for its copy -/

/-- The word `w` stands at the head of the queue, to be copied to element `j` of buffer `b`. -/
def State.WordWaits (s : State) (b : BufId) (j : Nat) (w : Word) : Prop :=
  s.ceBusy = true ∧ s.ceDst = b ∧ s.ceIdx = j ∧ ∃ rest, s.rxq = w :: rest

/-- Where CE_COPY is enabled a word waits, and where a word waits CE_COPY is enabled. -/
theorem wordWaits_of_ceReady {s : State} (h : s.ceReady = true) : ∃ w, s.WordWaits s.ceDst s.ceIdx w := by
  obtain ⟨hbusy, w, rest, hq⟩ := (ceReady_iff s).1 h
  exact ⟨w, hbusy, rfl, rfl, rest, hq⟩

theorem ceReady_of_wordWaits {s : State} {b : BufId} {j : Nat} {w : Word} (h : s.WordWaits b j w) : s.ceReady = true := by
  obtain ⟨hbusy, -, -, rest, hq⟩ := h
  exact (ceReady_iff s).2 ⟨hbusy, w, rest, hq⟩

theorem wordWaits_of_sameBlock {s t : State} {b : BufId} {j : Nat} {w : Word} (h : s.SameBlock t)
    (hw : s.WordWaits b j w) : t.WordWaits b j w := by
  rw [State.SameBlock] at h
  rw [h]
  exact hw

/-- A waiting word waits on under every operation but the copy itself and START_CAPTURE. -/
theorem wordWaits_effect {i : Instr} {s : State} {b : BufId} {j : Nat} {w : Word} (hi : i ≠ .startCapture)
    (hcopy : i ≠ .ceCopy) (hw : s.WordWaits b j w) : (effect i s).WordWaits b j w := by
  cases i with
  | startCapture => exact absurd rfl hi
  | ceCopy => exact absurd rfl hcopy
  | seqPush v =>
    obtain ⟨hbusy, hb, hj, rest, hq⟩ := hw
    exact ⟨hbusy, hb, hj, rest ++ [v], congrArg (· ++ [v]) hq⟩
  | waitCapture | decode | reserved => exact hw
  | linkInit | cmdBadLen | cmdBadOp | grantZero | grantCredit | chunkAck | chunkAckStray | beginSend =>
    rw [effect_link_frame s rfl]
    exact hw

/-- A waiting word waits on over a step that neither copies it, nor starts a capture, nor resets the device. -/
theorem wordWaits_step {s t : State} {b : BufId} {j : Nat} {w : Word} (h : step s = .next t)
    (hi : s.stepOp ≠ some .startCapture) (hcopy : s.stepOp ≠ some .ceCopy) (hm : ¬ s.resetsNext)
    (hw : s.WordWaits b j w) : t.WordWaits b j w := by
  cases hop : s.stepOp with
  | none => exact wordWaits_of_sameBlock (sameBlock_of_step h hop hm) hw
  | some i =>
    obtain ⟨u, hu, hexec⟩ := exec_of_step h hop
    replace hw := wordWaits_of_sameBlock hu hw
    rw [hop] at hi hcopy
    obtain ⟨-, rfl⟩ | ⟨-, rfl⟩ := exec_next hexec
    · exact wordWaits_effect (fun h => hi (h ▸ rfl)) (fun h => hcopy (h ▸ rfl)) hw
    · exact hw

/-- The step that takes up CE_COPY copies the waiting word to its element (40_capture.md R109). -/
theorem copied_of_step {s t : State} {b : BufId} {j : Nat} {w : Word} (h : step s = .next t)
    (hop : s.stepOp = some .ceCopy) (hw : s.WordWaits b j w) : t.ceIdx = j + 1 ∧ t.bufWord b j = w := by
  obtain ⟨u, hu, hexec⟩ := exec_of_step h hop
  obtain ⟨hbusy, rfl, rfl, rest, hq⟩ := wordWaits_of_sameBlock hu hw
  obtain ⟨-, rfl⟩ | ⟨hstuck, -⟩ := exec_next hexec
  · exact ⟨copyWord_ceIdx hq, by rw [effect, bufWord_copyWord hq, if_pos ⟨rfl, rfl⟩]⟩
  · exact absurd hstuck (by rw [enabled, (ceReady_iff u).2 ⟨hbusy, w, rest, hq⟩]; decide)

end Sys2Proof.Machine
end

section
/-! PROOFS. The statements of 40_capture.md. -/

namespace Sys2Proof.Machine

/-- Settles O13: the operation has no guard, and the record is its effect. -/
theorem startCaptureSwapsRolesAndRestarts : Obligations.StartCaptureSwapsRolesAndRestarts := by
  refine ⟨fun _ => decode_of_isRow .startCapture, fun s hs => ?_⟩
  rw [exec_of_fg hs rfl]
  rfl

/-- Settles O14: the operation returns exactly on a complete transfer; where it is stuck FG's code is not retired, so the step
only takes its move. -/
theorem waitCaptureEndsOnlyACompleteTransfer : Obligations.WaitCaptureEndsOnlyACompleteTransfer := by
  refine ⟨fun _ => decode_of_isRow .waitCapture, fun s hs hstarted hidle => ?_, fun s hs hstuck => ?_⟩
  · exact exec_waitCapture_done hs ((captureDone_iff s).2 ⟨hstarted, hidle⟩)
  · have hdone : s.captureDone = false := by rcases hstuck with h | h <;> simp [State.captureDone, h]
    refine ⟨exec_waitCapture_stuck hs hdone, fun ms rest hc hm hn => ?_⟩
    rw [stepRunsForegroundOperation s ms 0x2#4 rest .waitCapture hc hm hn (decode_of_isRow .waitCapture) nofun,
      enabled, hdone]
    exact exec_waitCapture_stuck (s := { s with moves := ms }) hs hdone

/-- Settles O15, by induction on the sequence: no operation but START_CAPTURE sets `cap_started`, without which WAIT_CAPTURE
is stuck. -/
theorem waitBeforeAnyStartIsStuckForEver : Obligations.WaitBeforeAnyStartIsStuckForEver := by
  intro is s t hs hstarted hne h
  obtain ⟨ht, hunstarted⟩ : t.setupDone = true ∧ t.capStarted = false := by
    refine execAll_keeps (P := fun u => u.setupDone = true ∧ u.capStarted = false) (fun i hi u v hu hexec => ?_)
      ⟨hs, hstarted⟩ h
    obtain ⟨-, rfl⟩ | ⟨-, rfl⟩ := exec_next hexec
    · rwa [effect_setupDone, effect_capStarted_of_ne_startCapture u (hne i hi)]
    · exact hu
  exact ⟨hunstarted, exec_waitCapture_stuck ht (by rw [State.captureDone, hunstarted, Bool.false_and])⟩

/-- Settles O16: the wait returns as in O14, and clearing `seq_en` again changes nothing. -/
theorem secondWaitReturnsAtOnce : Obligations.SecondWaitReturnsAtOnce := by
  intro s hs hstarted hidle hoff
  obtain ⟨-, hreturns, -⟩ := waitCaptureEndsOnlyACompleteTransfer
  rw [hreturns s hs hstarted hidle, ← hoff]

/-- Settles O17: the two cases are the guard and its negation. -/
theorem seqPushAppendsTheDrawnWord : Obligations.SeqPushAppendsTheDrawnWord := by
  intro s w
  rw [exec_of_not_fg s (i := .seqPush w) rfl (by decide), enabled]
  refine ⟨fun hen hroom => ⟨_, _, by rw [if_pos ((seqReady_iff s).2 ⟨hen, hroom⟩)]; rfl⟩, fun hstuck => ?_⟩
  rw [if_neg]
  intro h
  obtain ⟨hen, hroom⟩ := (seqReady_iff s).1 h
  rcases hstuck with hoff | hfull
  · simp [hoff] at hen
  · omega

/-- Settles O18: the copy as one equation, with the buffers read back by the law of a write. -/
theorem ceCopyMovesOneWord : Obligations.CeCopyMovesOneWord := by
  intro s
  rw [exec_of_not_fg s (i := .ceCopy) rfl (by decide), enabled]
  refine ⟨fun w rest hbusy hq => ⟨copyWord s, ?_, ?_, bufWord_copyWord hq⟩, fun hstuck => ?_⟩
  · rw [if_pos ((ceReady_iff s).2 ⟨hbusy, w, rest, hq⟩)]; rfl
  · have hend : (advanceCopy rest s).ceBusy = decide (s.ceIdx + 1 ≠ 2 * s.cfg.spb) :=
      Bool.eq_iff_iff.2 ((advanceCopy_busy_iff rest hbusy).trans decide_eq_true_iff.symm)
    rw [← hend]
    exact copyWord_eq hq
  · rw [if_neg]
    intro h
    obtain ⟨hbusy, w, rest, hq⟩ := (ceReady_iff s).1 h
    rcases hstuck with hidle | hempty
    · simp [hidle] at hbusy
    · simp [hempty] at hq

/-- Settles O19: an enabled operation extends the stream by what it pushes; a stuck one changes nothing, and a stuck push is
one that was not accepted. -/
theorem captureStreamLosesNoWord : Obligations.CaptureStreamLosesNoWord := by
  intro i s t _ hi hexec
  have hstream : t.stream = s.stream ++ if enabled i s then (pushedWord i).toList else [] := by
    obtain ⟨he, rfl⟩ | ⟨he, rfl⟩ := exec_next hexec
    · rw [if_pos he, stream_effect hi he]
    · rw [he, if_neg Bool.false_ne_true, List.append_nil]
  refine hstream.trans (congrArg (s.stream ++ ·) ?_)
  cases i with
  | seqPush w => simp only [enabled, seqReady_iff, pushedWord, Option.toList_some]
  | startCapture | waitCapture | decode | linkInit | cmdBadLen | cmdBadOp | grantZero | grantCredit | chunkAck |
    chunkAckStray | ceCopy | beginSend | reserved => exact ite_self []

/-- Settles O20: the schedule fills the transfer's buffer, which START_CAPTURE has taken out of the front role, and spares the
other. -/
theorem captureCycleFillsTheBackBuffer : Obligations.CaptureCycleFillsTheBackBuffer := by
  intro s ws is hc hs hl hsched
  obtain ⟨t, hrun, ⟨hframe, hfront⟩, hidle, hidx, hrxq, hwords⟩ := execAll_captureCycle hc hs hl hsched
  exact ⟨t, hrun, by rw [hframe]; rfl, by rw [hframe]; rfl, hidle, hidx, hrxq, hwords, hfront⟩

/-- Settles O21: after the cycle WAIT_CAPTURE returns, the second START_CAPTURE gives the filled buffer the front role back, and
DECODE unpacks it. -/
theorem nextCycleDecodesTheCapturedWords : Obligations.NextCycleDecodesTheCapturedWords := by
  intro s ws is hc hs hl hsched
  obtain ⟨t, hrun, ⟨hframe, -⟩, hidle, -, -, hwords⟩ := execAll_captureCycle hc hs hl hsched
  have hcfg : t.cfg = s.cfg := by rw [hframe]; rfl
  have hdone : t.captureDone = true := (captureDone_iff t).2 ⟨by rw [hframe]; rfl, hidle⟩
  obtain ⟨u, hnext, hucfg, hucursor, hucount, hufront, hubuf⟩ :=
    execAll_wait_start_decode (by rw [hframe]; exact hs : t.setupDone = true) hdone
  have hfront : u.front = s.front := by rw [hufront, hframe]; exact other_other s.front
  have hread (j : Nat) (hj : j < 2 * s.cfg.spb) : u.bufWord u.front j = ws.getD j 0#32 := by
    rw [hfront, hubuf, hwords j hj]
  refine ⟨decodeBlock u, by rw [execAll_append, hrun]; exact hnext, rfl, ?_, ?_, fun i c hi hc => ?_⟩
  · rw [decodeBlock_cursor, State.targetSlot, hucursor, hucfg, hframe]; rfl
  · rw [decodeBlock_pubCount, hucount, hframe]; rfl
  · rw [decodeBlock_cursor, ← hread (2 * i + 1) (by omega), ← hread (2 * i) (by omega)]
    exact decodedSample_toNat (by rwa [hucfg, hcfg]) hc

/-- Settles O57: until it is copied the word waits on, so CE_COPY stays enabled, and a fair run takes it. -/
theorem fairCopyEngineMakesProgress : Obligations.FairCopyEngineMakesProgress := by
  intro r n hrun hfair hready
  obtain ⟨w, hw⟩ := wordWaits_of_ceReady hready
  by_contra hno
  push Not at hno
  have hcopy (m : Nat) (hm : n ≤ m) (hwm : (r m).WordWaits (r n).ceDst (r n).ceIdx w) : (r m).stepOp ≠ some .ceCopy := by
    intro hop
    obtain ⟨t, ms, hstep, hnext⟩ := hrun m
    obtain ⟨hidx, hword⟩ := copied_of_step hstep hop hwm
    obtain ⟨-, -, -, rest, hq⟩ := hw
    exact (hno m hm).2.2 hop (by rw [hnext]; exact hidx) (by rw [hnext, hq]; exact hword)
  have hwaits (m : Nat) (hm : n ≤ m) : (r m).WordWaits (r n).ceDst (r n).ceIdx w := by
    induction m, hm using Nat.le_induction with
    | base => exact hw
    | succ m hm ih =>
      obtain ⟨t, ms, hstep, hnext⟩ := hrun m
      obtain ⟨hstart, hreset, -⟩ := hno m hm
      have hwt := wordWaits_step hstep hstart (hcopy m hm ih) hreset ih
      rw [hnext]
      exact hwt
  obtain ⟨m, hm, hop⟩ := hfair n fun m hm => ceReady_of_wordWaits (hwaits m hm)
  exact hcopy m hm (hwaits m hm) hop

end Sys2Proof.Machine
end

section
/-! SUPPORT. The fields of a raw word as bit ranges; DECODE's execution, its marks of the race, and the slots it writes and
spares. -/

namespace Sys2Proof.Machine

/-! ## The fields of a raw word -/

/-- Bits 10k+9 down to 10k of a word as a number (41_decoder.md R121). -/
theorem toNat_fieldBits (w : Word) (k : Nat) : (w.extractLsb' (10 * k) 10).toNat = w.toNat / 2 ^ (10 * k) % 1024 := by
  rw [BitVec.extractLsb'_toNat, Nat.shiftRight_eq_div_pow]

/-- An entry whose number is a field's is the field, zero-extended (41_decoder.md R122). -/
theorem eq_setWidth_of_toNat {x : Entry} {w : Word} {c : Nat} (h : x.toNat = w.toNat / 2 ^ (10 * c) % 1024) :
    x = (w.extractLsb' (10 * c) 10).setWidth 16 := by
  apply BitVec.eq_of_toNat_eq
  rw [BitVec.toNat_setWidth_of_le (by decide), toNat_fieldBits, h]

/-- The shift and the mask pick a bit range (41_decoder.md R121). -/
theorem field_eq_extractLsb' (w : Word) (k : Nat) : field w k = w.extractLsb' (10 * k) 10 :=
  BitVec.eq_of_toNat_eq ((field_toNat w k).trans (toNat_fieldBits w k).symm)

/-- A field lies below the padding bits 31:30 (41_decoder.md R121). -/
theorem field_eq_extractLsb'_unpadded (w : Word) {k : Nat} (hk : k < 3) :
    field w k = (w.extractLsb' 0 30).extractLsb' (10 * k) 10 := by
  rw [field_eq_extractLsb', BitVec.extractLsb'_extractLsb'_of_le (by omega)]

theorem unpack_eq_extractLsb' (w : Word) :
    unpack w = [w.extractLsb' 0 10, w.extractLsb' 10 10, w.extractLsb' 20 10] := by
  simp only [unpack_eq, field_eq_extractLsb', Nat.mul_zero, Nat.mul_one, Nat.reduceMul]

/-- Unpacking undoes packing, whatever the padding `p` is (41_decoder.md R126). -/
theorem unpack_packed (p : BitVec 2) (v2 v1 v0 : Sample) : unpack (p ++ v2 ++ v1 ++ v0) = [v0, v1, v2] := by
  have h0 : (p ++ v2 ++ v1 ++ v0).extractLsb' 0 10 = v0 := BitVec.extractLsb'_append_eq_right
  have h1 : (p ++ v2 ++ v1 ++ v0).extractLsb' 10 10 = v1 :=
    (BitVec.extractLsb'_append_eq_of_le (by decide)).trans BitVec.extractLsb'_append_eq_right
  have h2 : (p ++ v2 ++ v1 ++ v0).extractLsb' 20 10 = v2 :=
    (BitVec.extractLsb'_append_eq_of_le (by decide)).trans
      ((BitVec.extractLsb'_append_eq_of_le (by decide)).trans BitVec.extractLsb'_append_eq_right)
  rw [unpack_eq_extractLsb', h0, h1, h2]

/-- Zero extension keeps the fields' numbers (41_decoder.md R122). -/
theorem map_toNat_unpackEntries (w : Word) : (unpackEntries w).map BitVec.toNat = (unpack w).map BitVec.toNat := by
  rw [unpackEntries, List.map_map]
  exact List.map_congr_left fun f _ => BitVec.toNat_setWidth_of_le (by decide)

/-! ## DECODE -/

/-- DECODE has no guard (41_decoder.md R122). -/
theorem exec_decode {s : State} (hs : s.setupDone = true) : exec .decode s = .next (decodeBlock s) := exec_of_fg hs rfl

theorem eq_decodeBlock_of_exec {s t : State} (h : exec .decode s = .next t) : t = decodeBlock s := by
  have hrun := exec_decode (exec_setup h rfl)
  rw [h] at hrun
  cases hrun
  rfl

/-- DECODE marks the block in flight exactly if it overwrites its slot (41_decoder.md R124). -/
theorem decodeBlock_tainted (s : State) :
    (decodeBlock s).tainted = (s.tainted || (s.inFlight && decide (s.blk = s.targetSlot))) := rfl

/-- DECODE marks each pending transfer of the slot it overwrites (41_decoder.md R124). -/
theorem decodeBlock_xferQ (s : State) :
    (decodeBlock s).xferQ = s.xferQ.map fun x => { x with taint := x.taint || decide (x.slot = s.targetSlot) } := rfl

/-- With two slots or more the next slot is not the current one (41_decoder.md R125). -/
theorem targetSlot_ne_cursor {s : State} (hc : s.cfg.ok = true) (hlt : s.cursor < s.cfg.ringN) : s.targetSlot ≠ s.cursor := by
  obtain ⟨-, hring, -⟩ := (params_ok_iff s.cfg).1 hc
  unfold State.targetSlot
  obtain hin | hwrap : s.cursor + 1 < s.cfg.ringN ∨ s.cursor + 1 = s.cfg.ringN := by omega
  · rw [Nat.mod_eq_of_lt hin]
    omega
  · rw [hwrap, Nat.mod_self]
    omega

/-- DECODE writes no slot but its target (41_decoder.md R122). -/
theorem ringEntry_decodeBlock_of_ne {s : State} {slot e : Nat} (hslot : slot ≠ s.targetSlot) (he : e < s.cfg.slotLen) :
    (decodeBlock s).ringEntry slot e = s.ringEntry slot e := by
  rw [ringEntry_decodeBlock slot he, if_neg hslot]

/-- DECODE fills its target slot with the front buffer's entries (41_decoder.md R122). -/
theorem ringEntry_decodeBlock_targetSlot {s : State} {e : Nat} (he : e < s.cfg.slotLen) :
    (decodeBlock s).ringEntry s.targetSlot e = (blockEntries s.cfg.spb (s.bufWord s.front)).getD e 0#16 := by
  rw [ringEntry_decodeBlock s.targetSlot he, if_pos rfl]

/-- The six entries of a sample in the slot a DECODE publishes (41_decoder.md R122). -/
theorem map_ringEntry_decodeBlock_sample {s : State} {i : Nat} (hi : i < s.cfg.spb) :
    (List.range 6).map (fun c => (decodeBlock s).ringEntry s.targetSlot (i * 6 + c)) =
      sampleEntries (s.bufWord s.front) i :=
  List.map_congr_left fun _ hc => ringEntry_decodeBlock_sample hi (List.mem_range.1 hc)

end Sys2Proof.Machine
end

section
/-! PROOFS. The statements of 41_decoder.md. -/

namespace Sys2Proof.Machine

/-- Settles O22: a field is a bit range, and its range lies below the padding. -/
theorem unpackGivesThreeFields : Obligations.UnpackGivesThreeFields := by
  intro w
  refine ⟨unpack_eq_extractLsb' w, fun v h => ?_⟩
  have hfield (k : Nat) (hk : k < 3) : field v k = field w k := by
    rw [field_eq_extractLsb'_unpadded v hk, field_eq_extractLsb'_unpadded w hk, h]
  rw [unpack_eq, unpack_eq, hfield 0 (by decide), hfield 1 (by decide), hfield 2 (by decide)]

/-- Settles O23: the operation has no guard, the record is its effect, and the ring is read back slot by slot. -/
theorem decodePublishesTheFrontBuffer : Obligations.DecodePublishesTheFrontBuffer := by
  refine ⟨fun _ => decode_of_isRow .decode, fun s hs => ⟨decodeBlock s, exec_decode hs, rfl, fun i c hi hc => ?_,
    fun slot e hslot he => ringEntry_decodeBlock_of_ne hslot he⟩⟩
  obtain ⟨hodd, heven⟩ := decodedSample_toNat hi hc
  exact ⟨eq_setWidth_of_toNat hodd, eq_setWidth_of_toNat heven⟩

/-- Settles O24: the marks as the race's check makes them, slot and bytes of each transfer kept. -/
theorem decodeMarksAnOverwrittenSend : Obligations.DecodeMarksAnOverwrittenSend := by
  intro s hs
  refine ⟨decodeBlock s, exec_decode hs, ?_, ?_, ?_⟩
  · rw [decodeBlock_tainted, decodeBlock_cursor, Bool.or_eq_true, Bool.and_eq_true, decide_eq_true_eq]
  · rw [decodeBlock_xferQ, List.map_map]
    rfl
  · rw [decodeBlock_xferQ, List.map_map]
    rfl

/-- Settles O25: the sample's entries are the fields of its two words, and unpacking undoes packing. -/
theorem decodeRoundTripsPackedSamples : Obligations.DecodeRoundTripsPackedSamples := by
  intro s i v0 v1 v2 v3 v4 v5 p q hs hi hodd heven
  refine ⟨decodeBlock s, exec_decode hs, ?_⟩
  calc (List.range 6).map (fun c => ((decodeBlock s).ringEntry s.targetSlot (i * 6 + c)).toNat)
      = (sampleEntries (s.bufWord s.front) i).map BitVec.toNat := by
        rw [← map_ringEntry_decodeBlock_sample hi, List.map_map]
        rfl
    _ = (unpack (s.bufWord s.front (2 * i + 1))).map BitVec.toNat ++
          (unpack (s.bufWord s.front (2 * i))).map BitVec.toNat := by
        rw [sampleEntries, List.map_append, map_toNat_unpackEntries, map_toNat_unpackEntries]
    _ = [v0.toNat, v1.toNat, v2.toNat, v3.toNat, v4.toNat, v5.toNat] := by
        rw [hodd, heven, unpack_packed, unpack_packed]
        rfl

/-- Settles O26: the target is another slot than the current one, and no other slot is written. -/
theorem decodeSparesTheCurrentSlot : Obligations.DecodeSparesTheCurrentSlot := by
  intro s t hc hlt h
  obtain rfl := eq_decodeBlock_of_exec h
  have hne := targetSlot_ne_cursor hc hlt
  exact ⟨hne, fun e he => ringEntry_decodeBlock_of_ne hne.symm he⟩

/-- Settles O27: the second DECODE reads the same front buffer and spares the slot the first one has published. -/
theorem repeatedDecodeGivesIdenticalBlocks : Obligations.RepeatedDecodeGivesIdenticalBlocks := by
  intro s hc _ hs
  have hlt : (decodeBlock s).cursor < s.cfg.ringN := Nat.mod_lt _ (ringN_pos hc)
  refine ⟨decodeBlock (decodeBlock s), ?_, Nat.mod_add_mod (s.cursor + 1) s.cfg.ringN 1, rfl, fun e he => ?_⟩
  · rw [execAll_cons (exec_decode hs), execAll_cons (exec_decode ((decodeBlock_setupDone s).trans hs)), execAll]
  · have hsecond : (decodeBlock (decodeBlock s)).ringEntry (decodeBlock s).targetSlot e =
        (blockEntries s.cfg.spb (s.bufWord s.front)).getD e 0#16 := ringEntry_decodeBlock_targetSlot he
    have hfirst : (decodeBlock (decodeBlock s)).ringEntry s.targetSlot e = (decodeBlock s).ringEntry s.targetSlot e :=
      ringEntry_decodeBlock_of_ne (targetSlot_ne_cursor (s := decodeBlock s) hc hlt).symm he
    exact hsecond.trans (hfirst.trans (ringEntry_decodeBlock_targetSlot he)).symm

end Sys2Proof.Machine
end

section
/-! SUPPORT. The pending transfers: the transfer a chunk adds, and the two invariants of the pending transfers under each
operation. -/

namespace Sys2Proof.Machine

/-! ## The transfer of a chunk -/

/-- The transfer `send_chunk()` begins (42_streaming.md R153). -/
def State.nextTransfer (s : State) : Transfer where
  slot := s.blk
  bytes := if s.tainted then drawBytes s.draws (chunkLen s.cfg s.offset) else s.chunkBytes s.blk s.offset
  taint := s.tainted

/-- Issuing a chunk adds its transfer, emits its bytes, and takes a draw if it is tainted (42_streaming.md R153). -/
theorem sendChunk_eq (s : State) :
    sendChunk s = { s with
      xferQ := s.xferQ ++ [s.nextTransfer]
      outputs := s.outputs ++ [.beginTransfer s.nextTransfer.bytes]
      draws := if s.tainted then s.draws + 1 else s.draws } := rfl

theorem nextTransfer_length (s : State) : s.nextTransfer.bytes.length = chunkLen s.cfg s.offset := by
  unfold State.nextTransfer
  split <;> simp

theorem nextTransfer_bytes {s : State} (h : s.tainted = false) : s.nextTransfer.bytes = s.chunkBytes s.blk s.offset := by
  simp [State.nextTransfer, h]

theorem chunkLen_pos {p : Config.Params} {offset : Nat} (h : offset < p.blockBytes) : 1 ≤ chunkLen p offset := by
  unfold chunkLen Config.chunk
  omega

/-- A DECODE leaves the chunks of every slot but its target (41_decoder.md R122). -/
theorem chunkBytes_decodeBlock_of_ne {s : State} {slot : Nat} (h : slot ≠ s.targetSlot) (offset : Nat) :
    (decodeBlock s).chunkBytes slot offset = s.chunkBytes slot offset :=
  chunkBytes_congr rfl fun _ he => ringEntry_decodeBlock_of_ne h he

/-- A transfer is untouched by a DECODE exactly if it was and reads another slot than the target (41_decoder.md R124). -/
theorem mark_eq_false_iff {x : Transfer} {slot : Nat} :
    (x.taint || decide (x.slot = slot)) = false ↔ x.taint = false ∧ x.slot ≠ slot := by
  rw [Bool.or_eq_false_iff, decide_eq_false_iff_not]

/-! ## What is true of every pending transfer -/

theorem transferInv_of_sameBlock {s t : State} (h : s.SameBlock t) (hs : s.TransferInv) : t.TransferInv := by
  rw [State.SameBlock] at h
  rw [h]
  exact { hs with }

/-- A completion leaves the other transfers (42_streaming.md R155). -/
theorem transferInv_completeTransfer {s : State} (hs : s.TransferInv) : (completeTransfer s).TransferInv := by
  cases hq : s.xferQ with
  | nil => simpa [completeTransfer, hq] using hs
  | cons x rest =>
    have hmem (y : Transfer) (hy : y ∈ rest) : y ∈ s.xferQ := hq ▸ List.mem_cons_of_mem x hy
    rw [completeTransfer_cons hq]
    exact { size := fun y hy => hs.size y (hmem y hy), data := fun y hy => hs.data y (hmem y hy) }

/-- A chunk that starts at a chunk boundary inside the block is a whole one (42_streaming.md R153). -/
theorem transferInv_sendChunk {s : State} (hmod : s.offset % Config.chunk = 0) (hlt : s.offset < s.cfg.blockBytes)
    (hs : s.TransferInv) : (sendChunk s).TransferInv := by
  have hmem {x : Transfer} (hx : x ∈ (sendChunk s).xferQ) : x ∈ s.xferQ ∨ x = s.nextTransfer := by
    simpa [sendChunk_eq] using hx
  refine ⟨fun x hx => ?_, fun x hx ht => ?_⟩
  · obtain hx | rfl := hmem hx
    · exact hs.size x hx
    · rw [nextTransfer_length]
      exact ⟨chunkLen_pos hlt, Nat.min_le_left _ _⟩
  · obtain hx | rfl := hmem hx
    · exact hs.data x hx ht
    · exact ⟨s.offset, hmod, hlt, nextTransfer_bytes ht⟩

/-- The next chunk of the block in flight starts a whole chunk after the last one (42_streaming.md R155). -/
theorem transferInv_advanceSend {s : State} (hmod : s.offset % Config.chunk = 0) (hs : s.TransferInv) :
    (advanceSend s).TransferInv := by
  obtain ⟨hnext, he⟩ | ⟨-, he⟩ := advanceSend_cases s
  · rw [he]
    have hboundary : (s.offset + chunkLen s.cfg s.offset) % Config.chunk = 0 := by
      rw [chunkLen_eq_chunk hnext, Nat.add_mod_right, hmod]
    exact transferInv_sendChunk hboundary hnext { hs with }
  · rw [he]
    exact { hs with }

/-- A DECODE taints the transfers of the slot it fills, so the untainted ones read slots it spares (41_decoder.md R124). -/
theorem transferInv_decodeBlock {s : State} (hs : s.TransferInv) : (decodeBlock s).TransferInv := by
  refine ⟨fun y hy => ?_, fun y hy ht => ?_⟩
  · obtain ⟨x, hx, rfl⟩ := mem_taintCheck hy
    exact hs.size x hx
  · obtain ⟨x, hx, rfl⟩ := mem_taintCheck hy
    obtain ⟨hx0, hslot⟩ := mark_eq_false_iff.1 ht
    obtain ⟨offset, hmod, hlt, hbytes⟩ := hs.data x hx hx0
    exact ⟨offset, hmod, hlt, hbytes.trans (chunkBytes_decodeBlock_of_ne hslot offset).symm⟩

/-- An enabled instruction keeps the pending transfers whole and true to their slots. -/
theorem transferInv_effect {i : Instr} {s : State} (hc : s.cfg.ok = true) (hsession : s.SessionInv) (hs : s.TransferInv) :
    (effect i s).TransferInv := by
  cases i with
  | startCapture | waitCapture | seqPush | cmdBadLen | cmdBadOp | grantZero | grantCredit | reserved => exact { hs with }
  | decode => exact transferInv_decodeBlock hs
  | linkInit => exact ⟨nofun, nofun⟩
  | chunkAck =>
    simp only [effect]
    split
    next hf =>
      obtain ⟨-, hmod, -⟩ := hsession.sending hf
      exact transferInv_advanceSend (by rwa [completeTransfer_offset]) (transferInv_completeTransfer hs)
    next => exact transferInv_completeTransfer hs
  | chunkAckStray => exact transferInv_completeTransfer hs
  | ceCopy =>
    rw [effect, copyWord_frame]
    exact { hs with }
  | beginSend => exact transferInv_sendChunk (Nat.zero_mod _) (blockBytes_pos hc) { hs with }

/-! ## The newest transfer of the block in flight -/

theorem inTransitInv_of_sameBlock {s t : State} (h : s.SameBlock t) (hs : s.InTransitInv) : t.InTransitInv := by
  rw [State.SameBlock] at h
  rw [h]
  exact { hs with }

theorem inTransitInv_of_not_inFlight {s : State} (h : s.inFlight = false) : s.InTransitInv :=
  ⟨fun hf => by simp [h] at hf⟩

/-- The chunk just issued is the newest transfer (42_streaming.md R153). -/
theorem inTransitInv_sendChunk (s : State) : (sendChunk s).InTransitInv :=
  ⟨fun _ => ⟨s.nextTransfer, List.getLast?_concat, rfl, nextTransfer_length s, id, nextTransfer_bytes⟩⟩

theorem inTransitInv_advanceSend (s : State) : (advanceSend s).InTransitInv := by
  obtain ⟨-, he⟩ | ⟨-, he⟩ := advanceSend_cases s
  · rw [he]
    exact inTransitInv_sendChunk _
  · exact inTransitInv_of_not_inFlight (by rw [he])

/-- A DECODE that overwrites the block in flight taints its newest transfer with it; any other spares its bytes
(41_decoder.md R124). -/
theorem inTransitInv_decodeBlock {s : State} (hs : s.InTransitInv) : (decodeBlock s).InTransitInv := by
  refine ⟨fun hf => ?_⟩
  obtain ⟨x, hlast, hslot, hlen, htaint, hbytes⟩ := hs.newest hf
  refine ⟨{ x with taint := x.taint || decide (x.slot = s.targetSlot) }, ?_, hslot, hlen, fun ht => ?_, fun ht => ?_⟩
  · rw [decodeBlock_xferQ, List.getLast?_map, hlast]
    rfl
  · obtain ht | hover := (Bool.or_eq_true _ _).mp ht
    · exact (Bool.or_eq_true _ _).mpr (.inl (htaint ht))
    · obtain ⟨-, hblk⟩ := (Bool.and_eq_true _ _).mp hover
      exact (Bool.or_eq_true _ _).mpr (.inr (hslot ▸ hblk))
  · obtain ⟨hx0, hne⟩ := mark_eq_false_iff.1 ht
    exact (hbytes hx0).trans (chunkBytes_decodeBlock_of_ne (hslot ▸ hne) s.offset).symm

/-- An enabled instruction keeps the newest transfer the chunk of the block in flight. -/
theorem inTransitInv_effect {i : Instr} {s : State} (he : enabled i s = true) (hs : s.InTransitInv) :
    (effect i s).InTransitInv := by
  cases i with
  | startCapture | waitCapture | seqPush | cmdBadLen | cmdBadOp | grantZero | reserved => exact { hs with }
  | decode => exact inTransitInv_decodeBlock hs
  | linkInit | grantCredit => exact inTransitInv_of_not_inFlight rfl
  | chunkAck =>
    simp only [effect]
    split
    next => exact inTransitInv_advanceSend _
    next hf => exact inTransitInv_of_not_inFlight (by simpa using hf)
  | chunkAckStray =>
    simp only [enabled, Bool.and_eq_true, Bool.not_eq_true'] at he
    exact inTransitInv_of_not_inFlight (by simpa [effect] using he.2)
  | ceCopy =>
    rw [effect, copyWord_frame]
    exact { hs with }
  | beginSend => exact inTransitInv_sendChunk _

end Sys2Proof.Machine
end

section
/-! PROOFS. The statements of 42_streaming.md about the pending transfers. -/

namespace Sys2Proof.Machine

/-- Settles O51: of the three things a step can do to the block, the device reset leaves no pending transfer, and an enabled
instruction adds only chunks that start at a boundary inside the block, as the session's invariant says. -/
theorem stepKeepsUntaintedTransfersTrue : Obligations.StepKeepsUntaintedTransfersTrue := by
  intro s t hsession hs h
  have hc : s.cfg.ok = true := (step_next h).1
  obtain hst | ⟨u, -, -, rfl⟩ | ⟨i, u, hsu, -, rfl⟩ := step_block_cases h
  · exact transferInv_of_sameBlock hst hs
  · exact ⟨nofun, nofun⟩
  · exact transferInv_effect (hsu.cfg_eq ▸ hc) (sessionInv_of_sameBlock hsu hsession) (transferInv_of_sameBlock hsu hs)

/-- Settles O52, by the same three cases of a step. -/
theorem stepKeepsTheChunkInTransit : Obligations.StepKeepsTheChunkInTransit := by
  intro s t hs h
  obtain hst | ⟨u, -, -, rfl⟩ | ⟨i, u, hsu, he, rfl⟩ := step_block_cases h
  · exact inTransitInv_of_sameBlock hst hs
  · exact inTransitInv_of_not_inFlight rfl
  · exact inTransitInv_effect he (inTransitInv_of_sameBlock hsu hs)

end Sys2Proof.Machine
end

section
/-! SUPPORT. The operations of LINK one by one: their execution under their guards, the four rows of CMD_RX, BEGIN_SEND and the
acknowledgement as equations. -/

namespace Sys2Proof.Machine

/-! ## An operation of LINK under its guard -/

/-- Under its guard an operation of LINK has its effect (00_scope.md R12). -/
theorem exec_link_of_enabled {i : Instr} {s : State} (ha : agentOf i = some .link) (he : enabled i s = true) :
    exec i s = .next (effect i s) := by
  rw [exec_of_not_fg s ha (by decide), if_pos he]

/-- With its guard false an operation of LINK has no step (00_scope.md R12). -/
theorem exec_link_of_stuck {i : Instr} {s : State} (ha : agentOf i = some .link) (he : enabled i s = false) :
    exec i s = .next s := by
  rw [exec_of_not_fg s ha (by decide), he, if_neg Bool.false_ne_true]

/-! ## The four rows of CMD_RX -/

/-- A row of CMD_RX (42_streaming.md R143 to R146). -/
def IsCommand (i : Instr) : Prop :=
  (∃ p, i = .cmdBadLen p) ∨ (∃ a b, i = .cmdBadOp a b) ∨ i = .grantZero ∨ ∃ n, i = .grantCredit n

theorem agentOf_command {i : Instr} (h : IsCommand i) : agentOf i = some .link := by
  obtain ⟨p, rfl⟩ | ⟨a, b, rfl⟩ | rfl | ⟨n, rfl⟩ := h <;> rfl

/-- A CMD_RX comes on an armed channel only (42_streaming.md R142). -/
theorem enabled_command {i : Instr} (h : IsCommand i) (s : State) : enabled i s = s.cmdArmed := by
  obtain ⟨p, rfl⟩ | ⟨a, b, rfl⟩ | rfl | ⟨n, rfl⟩ := h <;> rfl

/-- Every CMD_RX ends with the re-arming of the channel (42_streaming.md R147). -/
theorem effect_command_rearms {i : Instr} (h : IsCommand i) (s : State) :
    (effect i s).cmdArmed = true ∧ (effect i s).outputs = s.outputs ++ [.armCmd Config.cmdLen] := by
  obtain ⟨p, rfl⟩ | ⟨a, b, rfl⟩ | rfl | ⟨n, rfl⟩ := h <;> exact ⟨rfl, rfl⟩

/-! ## BEGIN_SEND -/

/-- BEGIN_SEND's guard (42_streaming.md R152). -/
theorem sendReady_iff (s : State) :
    s.sendReady = true ↔ s.inFlight = false ∧ s.credit ≠ 0#8 ∧ s.curId ≠ none ∧ s.curId ≠ s.lastSent := by
  simp only [State.sendReady, Bool.and_eq_true, Bool.not_eq_true', bne_iff_ne, ne_eq, Option.isSome_iff_ne_none, and_assoc]

theorem sendReady_eq_false {s : State} (h : s.inFlight = true ∨ s.credit = 0#8 ∨ s.curId = none ∨ s.curId = s.lastSent) :
    s.sendReady = false := by
  by_contra hr
  obtain ⟨hf, hcredit, hid, hne⟩ := (sendReady_iff s).1 (Bool.eq_true_of_not_eq_false hr)
  obtain h | h | h | h := h
  · simp [h] at hf
  · exact hcredit h
  · exact hid h
  · exact hne h

/-- BEGIN_SEND issues the first chunk of the current block, read from its slot (42_streaming.md R152, R153). -/
theorem beginSend_eq (s : State) :
    beginSend s = { s with
      inFlight := true
      credit := s.credit - 1#8
      lastSent := s.curId
      blk := s.cursor
      offset := 0
      tainted := false
      xferQ := s.xferQ ++ [⟨s.cursor, s.chunkBytes s.cursor 0, false⟩]
      outputs := s.outputs ++ [.beginTransfer (s.chunkBytes s.cursor 0)] } := rfl

/-- `BB` is 12 bytes a sample (00_scope.md R8). -/
theorem blockBytes_eq (p : Config.Params) : p.blockBytes = p.spb * 12 := Nat.mul_assoc p.spb 6 2

/-- The first chunk of a slot, byte by byte (42_streaming.md R153). -/
theorem chunkBytes_zero (s : State) (slot : Nat) :
    s.chunkBytes slot 0 = (List.range (min 64 (s.cfg.spb * 12))).map (s.blockByte slot) := by
  simp only [State.chunkBytes, chunkLen, Config.chunk, blockBytes_eq, Nat.sub_zero, Nat.zero_add]

/-- A credit that is not zero goes down by one (42_streaming.md R152). -/
theorem toNat_sub_one {c : Byte} (h : c ≠ 0#8) : (c - 1#8).toNat = c.toNat - 1 := by bv_omega

/-! ## The acknowledgement -/

theorem ackReady_of_cons {s : State} {x : Transfer} {rest : List Transfer} (h : s.xferQ = x :: rest) : s.ackReady = true := by
  simp [State.ackReady, h]

theorem deliveredBytes_length (d : Nat) (x : Transfer) : (deliveredBytes d x).length = x.bytes.length := by
  unfold deliveredBytes
  split
  · exact drawBytes_length d _
  · rfl

theorem deliveredBytes_of_untainted (d : Nat) {x : Transfer} (h : x.taint = false) : deliveredBytes d x = x.bytes := by
  simp [deliveredBytes, h]

/-- With a block in flight an acknowledgement is its own (42_streaming.md R155). -/
theorem exec_chunkAck_of_inFlight {s : State} {x : Transfer} {rest : List Transfer} (hq : s.xferQ = x :: rest)
    (hf : s.inFlight = true) : exec .chunkAck s = .next (advanceSend (completeTransfer s)) := by
  rw [exec_link_of_enabled (i := .chunkAck) rfl (ackReady_of_cons hq), effect, if_pos hf]

/-- With no block in flight an acknowledgement only completes its transfer (42_streaming.md R156). -/
theorem exec_chunkAck_of_not_inFlight {s : State} {x : Transfer} {rest : List Transfer} (hq : s.xferQ = x :: rest)
    (hf : s.inFlight = false) : exec .chunkAck s = .next (completeTransfer s) := by
  rw [exec_link_of_enabled (i := .chunkAck) rfl (ackReady_of_cons hq), effect, hf, if_neg Bool.false_ne_true]

theorem exec_chunkAckStray_of_not_inFlight {s : State} {x : Transfer} {rest : List Transfer} (hq : s.xferQ = x :: rest)
    (hf : s.inFlight = false) : exec .chunkAckStray s = .next (completeTransfer s) :=
  exec_link_of_enabled rfl (by rw [enabled, ackReady_of_cons hq, hf]; rfl)

/-- The host receives the oldest transfer's own bytes, or a draw if it is tainted (42_streaming.md R154). -/
theorem completeTransfer_hostRx {s : State} {x : Transfer} {rest : List Transfer} (hq : s.xferQ = x :: rest) :
    (completeTransfer s).hostRx = s.hostRx ++ [deliveredBytes s.draws x] := by
  rw [completeTransfer_cons hq]

theorem completeTransfer_draws {s : State} {x : Transfer} {rest : List Transfer} (hq : s.xferQ = x :: rest) :
    (completeTransfer s).draws = if x.taint then s.draws + 1 else s.draws := by
  rw [completeTransfer_cons hq]

/-- The acknowledgement of the block in flight takes no draw back (log entry 11). -/
theorem draws_le_advanceSend (s : State) : s.draws ≤ (advanceSend s).draws := by
  obtain ⟨-, he⟩ | ⟨-, he⟩ := advanceSend_cases s
  · rw [he, sendChunk_eq]
    dsimp only
    split
    · exact Nat.le_succ _
    · exact Nat.le_refl _
  · rw [he]

/-- The state in which the next chunk of the block in flight is issued (42_streaming.md R155). -/
def State.atNextChunk (s : State) : State := { s with offset := s.offset + chunkLen s.cfg s.offset }

/-- An acknowledgement short of the block's end issues the next chunk (42_streaming.md R155). -/
theorem advanceSend_of_lt {s : State} (h : s.offset + chunkLen s.cfg s.offset < s.cfg.blockBytes) :
    advanceSend s = sendChunk s.atNextChunk := if_pos h

/-- That next chunk is the block's own bytes unless the block is tainted (42_streaming.md R153). -/
theorem advanceSend_issues_next {s : State} (h : s.offset + chunkLen s.cfg s.offset < s.cfg.blockBytes) :
    ∃ bytes d, bytes.length = chunkLen s.cfg (s.offset + chunkLen s.cfg s.offset) ∧
      (s.tainted = false → bytes = s.chunkBytes s.blk (s.offset + chunkLen s.cfg s.offset)) ∧
      advanceSend s = { s with
        offset := s.offset + chunkLen s.cfg s.offset
        xferQ := s.xferQ ++ [⟨s.blk, bytes, s.tainted⟩]
        outputs := s.outputs ++ [.beginTransfer bytes]
        draws := d } := by
  rw [advanceSend_of_lt h]
  exact ⟨_, _, nextTransfer_length s.atNextChunk, nextTransfer_bytes (s := s.atNextChunk), rfl⟩

/-- The last acknowledgement of a block ends its send (42_streaming.md R155). -/
theorem advanceSend_of_le {s : State} (h : s.cfg.blockBytes ≤ s.offset + chunkLen s.cfg s.offset) :
    advanceSend s = { s.atNextChunk with inFlight := false } := if_neg (Nat.not_lt.2 h)

end Sys2Proof.Machine
end

section
/-! PROOFS. The statements of 42_streaming.md about one operation. -/

namespace Sys2Proof.Machine

/-- Settles O31: the operation has no guard, and the record is its effect. -/
theorem linkInitCreatesAFreshSession : Obligations.LinkInitCreatesAFreshSession :=
  ⟨fun _ => decode_of_isRow .linkInit, fun _ => exec_link_of_enabled rfl rfl⟩

/-- Settles O32: the three rows have the re-arming as their only effect. -/
theorem ignoredCommandsChangeNoSession : Obligations.IgnoredCommandsChangeNoSession := by
  intro f s harmed
  exact ⟨fun payload hne hle => ⟨decode_of_isRow (.cmdBadLen hne hle), exec_link_of_enabled rfl harmed⟩,
    fun byte0 byte1 hop => ⟨decode_of_isRow (.cmdBadOp hop), exec_link_of_enabled rfl harmed⟩,
    decode_of_isRow .grantZero, exec_link_of_enabled rfl harmed⟩

/-- Settles O33: the record is the effect, and with no block in flight a credit that is not zero is ARMED. -/
theorem grantReplacesCreditAndAbandonsSend : Obligations.GrantReplacesCreditAndAbandonsSend := by
  intro f s n hn
  have harmedState : (effect (.grantCredit n) s).ssmState = .armed := if_neg hn
  exact ⟨decode_of_isRow (.grantCredit hn), fun harmed => ⟨_, exec_link_of_enabled rfl harmed, harmedState, rfl⟩⟩

/-- Settles O34: the guard of every row is the armed channel. -/
theorem unarmedChannelReceivesNothing : Obligations.UnarmedChannelReceivesNothing :=
  fun s _ hunarmed hi => exec_link_of_stuck (agentOf_command hi) ((enabled_command hi s).trans hunarmed)

/-- Settles O35: every row ends with the re-arming. -/
theorem everyCommandRearmsTheChannel : Obligations.EveryCommandRearmsTheChannel :=
  fun s _ harmed hi => ⟨_, exec_link_of_enabled (agentOf_command hi) ((enabled_command hi s).trans harmed),
    effect_command_rearms hi s⟩

/-- Settles O36: the two cases are the guard and its negation, and the first chunk is the slot's first bytes. -/
theorem beginSendStartsTheCurrentBlock : Obligations.BeginSendStartsTheCurrentBlock := by
  refine fun s => ⟨fun id hf hcredit hid hne => ?_, fun hstuck => exec_link_of_stuck rfl (sendReady_eq_false hstuck)⟩
  have hcredit : s.credit ≠ 0#8 := by bv_omega
  have hready : s.sendReady = true := (sendReady_iff s).2 ⟨hf, hcredit, by simp [hid], by rw [hid]; exact hne.symm⟩
  refine ⟨s.credit - 1#8, toNat_sub_one hcredit, ?_⟩
  rw [exec_link_of_enabled (i := .beginSend) rfl hready, effect, beginSend_eq, chunkBytes_zero, hid]

/-- Settles O40: the completion, then the two cases of the offset against `BB`. -/
theorem chunkAckAdvancesTheSend : Obligations.ChunkAckAdvancesTheSend := by
  refine ⟨decode_of_isRow (.chunkAck rfl), fun s => ⟨fun x rest hq => ?_, fun hq => ?_⟩⟩
  · refine ⟨deliveredBytes s.draws x, if x.taint then s.draws + 1 else s.draws, deliveredBytes_length _ x,
      deliveredBytes_of_untainted _, fun hf => ?_, fun hf hend => ?_, fun hf hmore => ?_⟩
    · rw [exec_chunkAck_of_not_inFlight hq hf, completeTransfer_cons hq]
    · rw [exec_chunkAck_of_inFlight hq hf, completeTransfer_cons hq, advanceSend_of_le (by exact hend)]
      rfl
    · rw [exec_chunkAck_of_inFlight hq hf, completeTransfer_cons hq]
      obtain ⟨bytes, d, hlen, hbytes, he⟩ := advanceSend_issues_next (s := { s with
        xferQ := rest
        hostRx := s.hostRx ++ [deliveredBytes s.draws x]
        draws := if x.taint then s.draws + 1 else s.draws }) hmore
      exact ⟨bytes, d, hlen, fun ht => hlen.symm ▸ hbytes ht, congrArg _ he⟩
  · exact exec_link_of_stuck rfl (by rw [enabled, State.ackReady, hq]; rfl)

/-- Settles O41: with no block in flight the row's guard is the pending transfer, and the completion is its effect. -/
theorem strayAckChangesNoSession : Obligations.StrayAckChangesNoSession := by
  refine ⟨decode_of_isRow (.chunkAckStray rfl), fun s x rest hf hq => ⟨deliveredBytes s.draws x,
    if x.taint then s.draws + 1 else s.draws, deliveredBytes_length _ x, deliveredBytes_of_untainted _, ?_⟩⟩
  rw [exec_chunkAckStray_of_not_inFlight hq hf, completeTransfer_cons hq]

/-- Settles O42: both rows complete the transfer, and what an acknowledgement does to the block in flight comes after it. -/
theorem taintedTransferReachesHostAsADraw : Obligations.TaintedTransferReachesHostAsADraw := by
  intro s x rest hq
  have hdraws (ht : x.taint = true) : s.draws < (completeTransfer s).draws := by
    rw [completeTransfer_draws hq, if_pos ht]
    exact Nat.lt_succ_self _
  refine ⟨?_, fun hf => ⟨_, exec_chunkAckStray_of_not_inFlight hq hf, completeTransfer_hostRx hq,
    completeTransfer_draws hq⟩⟩
  cases hf : s.inFlight with
  | true =>
    exact ⟨_, exec_chunkAck_of_inFlight hq hf, by rw [advanceSend_hostRx, completeTransfer_hostRx hq]; rfl,
      fun ht => (hdraws ht).trans_le (draws_le_advanceSend _)⟩
  | false => exact ⟨_, exec_chunkAck_of_not_inFlight hq hf, completeTransfer_hostRx hq, hdraws⟩

end Sys2Proof.Machine
end

section
/-! SUPPORT. A whole send: the chunks of a block, an undisturbed send acknowledgement by acknowledgement, the identity of the
current block against `last_sent`, rounds of a DECODE and a send, and a send that waits. -/

namespace Sys2Proof.Machine

/-! ## The chunks of a block -/

/-- ceil(`BB` / 64), the chunks of a block (42_streaming.md R157). -/
def chunkCount (p : Config.Params) : Nat := (p.spb * 12 + 63) / 64

/-- The chunks of a slot's block, first to last (42_streaming.md R153, R157). -/
def State.blockChunks (s : State) (slot : Nat) : List (List Byte) :=
  (List.range (chunkCount s.cfg)).map fun k => s.chunkBytes slot (64 * k)

/-- The last chunk of a block starts inside it and reaches its end. -/
theorem exists_lastChunk {p : Config.Params} (h : p.ok = true) :
    ∃ m, chunkCount p = m + 1 ∧ 64 * m < p.blockBytes ∧ p.blockBytes ≤ 64 * (m + 1) := by
  obtain ⟨hspb, -⟩ := (params_ok_iff p).1 h
  rw [blockBytes_eq]
  unfold chunkCount
  exact ⟨(p.spb * 12 + 63) / 64 - 1, by omega, by omega, by omega⟩

theorem blockChunks_length (s : State) (slot : Nat) : (s.blockChunks slot).length = chunkCount s.cfg := by
  simp [State.blockChunks]

theorem blockChunks_getElem?_length {s : State} {slot k : Nat} {c : List Byte} (h : (s.blockChunks slot)[k]? = some c) :
    c.length = min 64 (s.cfg.spb * 12 - 64 * k) := by
  rw [State.blockChunks, List.getElem?_map, Option.map_eq_some_iff] at h
  obtain ⟨j, hj, rfl⟩ := h
  obtain ⟨-, rfl⟩ := List.getElem?_eq_some_iff.1 hj
  rw [List.getElem_range, chunkBytes_length, chunkLen, Config.chunk, blockBytes_eq]

/-- The first m pieces of 64 values cover the first 64 × m of n values. -/
theorem flatten_pieces {α : Type} (f : Nat → α) (n m : Nat) :
    ((List.range m).map fun k => (List.range (min 64 (n - 64 * k))).map fun j => f (64 * k + j)).flatten =
      (List.range (min (64 * m) n)).map f := by
  induction m with
  | zero => simp
  | succ m ih =>
    have hsplit : min (64 * (m + 1)) n = min (64 * m) n + min 64 (n - 64 * m) := by omega
    rw [List.range_succ, List.map_append, List.flatten_append, ih, hsplit, List.range_add, List.map_append]
    congr 1
    by_cases hle : 64 * m ≤ n
    · simp [Nat.min_eq_left hle, Function.comp_def]
    · simp [Nat.sub_eq_zero_of_le (Nat.le_of_not_le hle)]

/-- The chunks of a block are its bytes in order (42_streaming.md R157). -/
theorem blockChunks_flatten (s : State) (slot : Nat) :
    (s.blockChunks slot).flatten = (List.range (s.cfg.spb * 12)).map (s.blockByte slot) := by
  have hcover : min (64 * chunkCount s.cfg) (s.cfg.spb * 12) = s.cfg.spb * 12 := by unfold chunkCount; omega
  have hpieces := flatten_pieces (s.blockByte slot) (s.cfg.spb * 12) (chunkCount s.cfg)
  rw [hcover] at hpieces
  simpa only [State.blockChunks, State.chunkBytes, chunkLen, Config.chunk, blockBytes_eq] using hpieces

/-! ## An undisturbed send -/

/-- Chunk k of the block in flight is the only pending transfer, and the race has not touched the send. -/
structure State.SendsChunk (s : State) (k : Nat) : Prop where
  inFlight : s.inFlight = true
  untainted : s.tainted = false
  offset : s.offset = 64 * k
  pending : s.xferQ = [⟨s.blk, s.chunkBytes s.blk (64 * k), false⟩]

/-- The host receives the chunk's own bytes, and the send advances with no transfer pending (42_streaming.md R154, R155). -/
theorem exec_chunkAck_of_sendsChunk {s : State} {k : Nat} (h : s.SendsChunk k) :
    exec .chunkAck s =
      .next (advanceSend { s with xferQ := [], hostRx := s.hostRx ++ [s.chunkBytes s.blk (64 * k)] }) := by
  rw [exec_chunkAck_of_inFlight h.pending h.inFlight, completeTransfer_cons h.pending]
  rfl

/-- The acknowledgement of a chunk that reaches the block's end ends the send (42_streaming.md R155). -/
theorem exec_lastAck {s : State} {k : Nat} (h : s.SendsChunk k) (hlo : 64 * k < s.cfg.blockBytes)
    (hhi : s.cfg.blockBytes ≤ 64 * (k + 1)) :
    exec .chunkAck s = .next { s with
      inFlight := false
      offset := s.cfg.blockBytes
      xferQ := []
      hostRx := s.hostRx ++ [s.chunkBytes s.blk (64 * k)] } := by
  have hend : s.offset + chunkLen s.cfg s.offset = s.cfg.blockBytes := by
    rw [h.offset, chunkLen, Config.chunk]
    omega
  rw [exec_chunkAck_of_sendsChunk h, advanceSend_of_le (by exact hend.ge), ← hend]
  rfl

/-- The acknowledgement of any other chunk issues the next one (42_streaming.md R153, R155). -/
theorem exec_nextAck {s : State} {k : Nat} (h : s.SendsChunk k) (hmore : 64 * (k + 1) < s.cfg.blockBytes) :
    ∃ t os d, exec .chunkAck s = .next t ∧
      t = { s with
        offset := 64 * (k + 1)
        xferQ := [⟨s.blk, s.chunkBytes s.blk (64 * (k + 1)), false⟩]
        outputs := os
        hostRx := s.hostRx ++ [s.chunkBytes s.blk (64 * k)]
        draws := d } ∧
      t.SendsChunk (k + 1) := by
  have hnext : s.offset + chunkLen s.cfg s.offset = 64 * (k + 1) := by
    rw [h.offset, chunkLen, Config.chunk]
    omega
  obtain ⟨bytes, d, -, hbytes, he⟩ := advanceSend_issues_next
    (s := { s with xferQ := [], hostRx := s.hostRx ++ [s.chunkBytes s.blk (64 * k)] }) (by exact hnext ▸ hmore)
  obtain rfl := hbytes h.untainted
  refine ⟨_, s.outputs ++ [.beginTransfer (s.chunkBytes s.blk (64 * (k + 1)))], d, ?_, rfl,
    ⟨h.inFlight, h.untainted, rfl, rfl⟩⟩
  rw [exec_chunkAck_of_sendsChunk h, he, hnext, h.untainted]
  rfl

/-- From chunk k on, one acknowledgement for each chunk left delivers the rest of the block (42_streaming.md R157). -/
theorem execAll_acks {s : State} {k m : Nat} (h : s.SendsChunk k) (hlo : 64 * (k + m) < s.cfg.blockBytes)
    (hhi : s.cfg.blockBytes ≤ 64 * (k + m + 1)) :
    ∃ os d, execAll (List.replicate (m + 1) .chunkAck) s = .next { s with
      inFlight := false
      offset := s.cfg.blockBytes
      xferQ := []
      outputs := os
      hostRx := s.hostRx ++ (List.range' k (m + 1)).map fun j => s.chunkBytes s.blk (64 * j)
      draws := d } := by
  induction m generalizing s k with
  | zero => exact ⟨s.outputs, s.draws, execAll_cons (exec_lastAck h hlo hhi)⟩
  | succ m ih =>
    obtain ⟨t, os, d, hack, rfl, ht⟩ := exec_nextAck h (by omega)
    obtain ⟨os', d', hrest⟩ := ih ht (by rw [Nat.add_right_comm k 1 m]; exact hlo)
      (by rw [Nat.add_right_comm k 1 m]; exact hhi)
    refine ⟨os', d', ?_⟩
    rw [List.replicate_succ, execAll_cons hack, hrest, List.range'_succ, List.map_cons, ← List.append_cons]
    rfl

/-- A send begun with no transfer pending delivers the current block's chunks and ends (42_streaming.md R152, R157). -/
theorem execAll_send {s : State} (hc : s.cfg.ok = true) (hready : s.sendReady = true) (hq : s.xferQ = []) :
    ∃ os d, execAll (.beginSend :: List.replicate (chunkCount s.cfg) .chunkAck) s = .next { s with
      inFlight := false
      credit := s.credit - 1#8
      lastSent := s.curId
      blk := s.cursor
      offset := s.cfg.blockBytes
      tainted := false
      xferQ := []
      outputs := os
      hostRx := s.hostRx ++ s.blockChunks s.cursor
      draws := d } := by
  obtain ⟨m, hcount, hlo, hhi⟩ := exists_lastChunk hc
  have hbegin : exec .beginSend s = .next (beginSend s) := exec_link_of_enabled rfl hready
  have hfirst : (beginSend s).SendsChunk 0 := ⟨rfl, rfl, rfl, by rw [beginSend_eq, hq]; rfl⟩
  obtain ⟨os, d, hrun⟩ := execAll_acks (m := m) hfirst (by simpa using hlo) (by simpa using hhi)
  refine ⟨os, d, ?_⟩
  rw [execAll_cons hbegin, hcount, hrun, State.blockChunks, hcount, List.range_eq_range']
  rfl

/-! ## The current identity and `last_sent` -/

/-- Only DECODE changes the current identity (10_state.md R37). -/
theorem effect_curId {i : Instr} (s : State) (hi : i ≠ .decode) : (effect i s).curId = s.curId := by
  cases i with
  | decode => exact absurd rfl hi
  | linkInit | cmdBadLen | cmdBadOp | grantZero | grantCredit | chunkAck | chunkAckStray | beginSend =>
    rw [effect_link_frame s rfl]
    rfl
  | ceCopy =>
    rw [effect, copyWord_frame]
    rfl
  | startCapture | waitCapture | seqPush | reserved => rfl

/-- Only LINK_INIT and BEGIN_SEND change `last_sent` (42_streaming.md R141, R152). -/
theorem effect_lastSent {i : Instr} (s : State) (hinit : i ≠ .linkInit) (hbegin : i ≠ .beginSend) :
    (effect i s).lastSent = s.lastSent := by
  cases i with
  | linkInit => exact absurd rfl hinit
  | beginSend => exact absurd rfl hbegin
  | chunkAck => simp only [effect]; split <;> simp
  | chunkAckStray => exact completeTransfer_lastSent s
  | ceCopy => exact copyWord_lastSent s
  | startCapture | waitCapture | decode | cmdBadLen | cmdBadOp | grantZero | grantCredit | seqPush | reserved => rfl

/-- A current block that was the last one sent remains it under all but DECODE and LINK_INIT (42_streaming.md R160). -/
theorem effect_lastSent_eq_curId {i : Instr} {s : State} (hdecode : i ≠ .decode) (hinit : i ≠ .linkInit)
    (h : s.lastSent = s.curId) : (effect i s).lastSent = (effect i s).curId := by
  by_cases hbegin : i = .beginSend
  · rw [hbegin]
    rfl
  · rw [effect_lastSent s hinit hbegin, effect_curId s hdecode, h]

/-- After a DECODE there is a current block (41_decoder.md R122). -/
theorem curId_decodeBlock_ne_none (s : State) : (decodeBlock s).curId ≠ none := by
  cases hm : s.cfg.idMode with
  | slot => rw [curId_of_slot (s := decodeBlock s) rfl hm]; nofun
  | seq => rw [curId_of_seq (s := decodeBlock s) rfl hm]; nofun

/-- A DECODE gives the current block a new identity (41_decoder.md R122, R125, 10_state.md R37). -/
theorem curId_decodeBlock_ne {s : State} (hc : s.cfg.ok = true) (hlt : s.cursor < s.cfg.ringN) :
    (decodeBlock s).curId ≠ s.curId := by
  cases hv : s.valid with
  | false => rw [curId_of_not_valid hv]; exact curId_decodeBlock_ne_none s
  | true =>
    cases hm : s.cfg.idMode with
    | slot =>
      rw [curId_of_slot (s := decodeBlock s) rfl hm, curId_of_slot hv hm, decodeBlock_cursor]
      exact fun h => targetSlot_ne_cursor hc hlt (Option.some.inj h)
    | seq =>
      rw [curId_of_seq (s := decodeBlock s) rfl hm, curId_of_seq hv hm, decodeBlock_pubCount]
      exact fun h => Nat.succ_ne_self _ (Option.some.inj h)

/-! ## Rounds of a DECODE and a send -/

/-- No send is under way, and the next DECODE makes a block that is not the last one sent. -/
structure State.BetweenSends (s : State) : Prop where
  setup : s.setupDone = true
  idle : s.inFlight = false
  empty : s.xferQ = []
  sent : s.lastSent = none ∨ (s.cursor < s.cfg.ringN ∧ s.lastSent = s.curId)

/-- A DECODE, a BEGIN_SEND and the acknowledgements of the whole block. -/
def sendRound (p : Config.Params) : List Instr := .decode :: .beginSend :: List.replicate (chunkCount p) .chunkAck

/-- With a credit left, the DECODE of a round enables BEGIN_SEND (42_streaming.md R152). -/
theorem sendReady_decodeBlock {s : State} (hc : s.cfg.ok = true) (h : s.BetweenSends) (hcredit : s.credit ≠ 0#8) :
    (decodeBlock s).sendReady = true := by
  refine (sendReady_iff _).2 ⟨h.idle, hcredit, curId_decodeBlock_ne_none s, ?_⟩
  rw [decodeBlock_lastSent]
  obtain hnone | ⟨hlt, hid⟩ := h.sent
  · rw [hnone]
    exact curId_decodeBlock_ne_none s
  · rw [hid]
    exact curId_decodeBlock_ne hc hlt

/-- A round takes one credit and leaves no send under way (42_streaming.md R161). -/
theorem execAll_sendRound {s : State} (hc : s.cfg.ok = true) (h : s.BetweenSends) (hcredit : s.credit ≠ 0#8) :
    ∃ t, execAll (sendRound s.cfg) s = .next t ∧ t.BetweenSends ∧ t.cfg = s.cfg ∧
      t.credit.toNat = s.credit.toNat - 1 ∧ t.hostRx.length = s.hostRx.length + chunkCount s.cfg := by
  obtain ⟨os, d, hsend⟩ := execAll_send (s := decodeBlock s) hc (sendReady_decodeBlock hc h hcredit)
    (by rw [decodeBlock_xferQ, h.empty]; rfl)
  refine ⟨_, (execAll_cons (exec_decode h.setup)).trans hsend, ⟨h.setup, rfl, rfl, .inr ⟨?_, rfl⟩⟩, rfl,
    toNat_sub_one hcredit, ?_⟩
  · exact Nat.mod_lt _ (ringN_pos hc)
  · simp [blockChunks_length]

/-- As many rounds as there are credits use the credit up (42_streaming.md R161). -/
theorem execAll_sendRounds {s : State} {m : Nat} (hc : s.cfg.ok = true) (h : s.BetweenSends) (hm : s.credit.toNat = m) :
    ∃ t, execAll (List.replicate m (sendRound s.cfg)).flatten s = .next t ∧ t.BetweenSends ∧ t.credit = 0#8 ∧
      t.hostRx.length = s.hostRx.length + m * chunkCount s.cfg := by
  induction m generalizing s with
  | zero => exact ⟨s, rfl, h, BitVec.eq_of_toNat_eq hm, by rw [Nat.zero_mul, Nat.add_zero]⟩
  | succ m ih =>
    have hcredit : s.credit ≠ 0#8 := fun h0 => by simp [h0] at hm
    obtain ⟨u, hround, hu, hcfg, hdown, hrx⟩ := execAll_sendRound hc h hcredit
    obtain ⟨t, hrun, ht, hzero, hrx'⟩ := ih (hcfg ▸ hc) hu (by omega)
    rw [hcfg] at hrun hrx'
    refine ⟨t, ?_, ht, hzero, by rw [hrx', hrx, Nat.succ_mul]; omega⟩
    rw [List.replicate_succ, List.flatten_cons, execAll_append, hround]
    exact hrun

/-! ## An acknowledgement that a new send takes as its own -/

theorem advanceSend_offset (s : State) : (advanceSend s).offset = s.offset + chunkLen s.cfg s.offset := by
  obtain ⟨-, he⟩ | ⟨-, he⟩ := advanceSend_cases s <;> rw [he]
  exact sendChunk_offset _

/-- A send goes on exactly short of the block's end (42_streaming.md R155). -/
theorem advanceSend_inFlight_iff {s : State} (hf : s.inFlight = true) :
    (advanceSend s).inFlight = true ↔ s.offset + chunkLen s.cfg s.offset < s.cfg.blockBytes := by
  obtain ⟨hlt, he⟩ | ⟨hle, he⟩ := advanceSend_cases s
  · rw [he]
    exact iff_of_true hf hlt
  · rw [he]
    exact iff_of_false nofun (Nat.not_lt.2 hle)

/-- The oldest pending transfer stays it when the next chunk is issued (42_streaming.md R153). -/
theorem advanceSend_xferQ_head? {s : State} {x : Transfer} {rest : List Transfer} (hq : s.xferQ = x :: rest) :
    (advanceSend s).xferQ.head? = some x := by
  obtain ⟨-, he⟩ | ⟨-, he⟩ := advanceSend_cases s
  · rw [he, sendChunk_xferQ, hq]
    rfl
  · rw [he, hq]
    rfl

/-- The first chunk of a block is short of its end exactly if the block is longer than a chunk. -/
theorem chunkLen_zero_lt_iff (p : Config.Params) : 0 + chunkLen p 0 < p.blockBytes ↔ 64 < p.spb * 12 := by
  rw [chunkLen, Config.chunk, blockBytes_eq]
  omega

/-- A grant and a DECODE leave the pending transfers in number, a credit and a new current block, with no block in flight
(42_streaming.md R146, 41_decoder.md R122). -/
theorem execAll_grant_decode {s : State} (n : Byte) (hs : s.setupDone = true) (harmed : s.cmdArmed = true) :
    ∃ u, execAll [.grantCredit n, .decode] s = .next u ∧ u.cfg = s.cfg ∧ u.cursor = (s.cursor + 1) % s.cfg.ringN ∧
      u.valid = true ∧ u.inFlight = false ∧ u.credit = n ∧ u.lastSent = s.lastSent ∧ u.hostRx = s.hostRx ∧
      u.xferQ.length = s.xferQ.length := by
  have hgrant : exec (.grantCredit n) s = .next (effect (.grantCredit n) s) := exec_link_of_enabled rfl harmed
  have hdecode := exec_decode (s := effect (.grantCredit n) s) hs
  have hlast : (effect (.grantCredit n) s).lastSent = s.lastSent := rfl
  have hrx : (effect (.grantCredit n) s).hostRx = s.hostRx := rfl
  refine ⟨decodeBlock (effect (.grantCredit n) s), ?_, (decodeBlock_cfg _).trans (effect_cfg _ s), rfl, rfl, rfl, rfl,
    (decodeBlock_lastSent _).trans hlast, (decodeBlock_hostRx _).trans hrx, ?_⟩
  · rw [execAll_cons hgrant, execAll_cons hdecode, execAll]
  · rw [decodeBlock_xferQ, List.length_map]
    rfl

/-- A send begun with a transfer of an older send pending takes that transfer's completion as its own: its offset is a chunk
ahead, with its first chunk the oldest one pending (42_streaming.md R158). -/
theorem exec_chunkAck_of_stale {s : State} {x : Transfer} (hq : s.xferQ = [x]) :
    ∃ u, exec .chunkAck (beginSend s) = .next u ∧ u.offset = min 64 (s.cfg.spb * 12) ∧
      u.hostRx.length = s.hostRx.length + 1 ∧ u.xferQ.head? = some ⟨s.cursor, s.chunkBytes s.cursor 0, false⟩ ∧
      (u.inFlight = true ↔ 64 < s.cfg.spb * 12) := by
  have hqueue : (beginSend s).xferQ = x :: [⟨s.cursor, s.chunkBytes s.cursor 0, false⟩] := by rw [beginSend_eq, hq]; rfl
  refine ⟨_, exec_chunkAck_of_inFlight hqueue rfl, ?_, ?_, ?_, ?_⟩
  · rw [advanceSend_offset, completeTransfer_offset, completeTransfer_cfg, chunkLen, blockBytes_eq]
    exact Nat.zero_add _
  · rw [advanceSend_hostRx, completeTransfer_hostRx hqueue, List.length_append]
    rfl
  · exact advanceSend_xferQ_head? (by rw [completeTransfer_cons hqueue])
  · rw [advanceSend_inFlight_iff (completeTransfer_inFlight _), completeTransfer_offset, completeTransfer_cfg]
    exact chunkLen_zero_lt_iff s.cfg

/-! ## A send that waits -/

/-- What decodes is well formed (30_encoding.md R71 to R74). -/
theorem wf_of_decode {f : Bool} {bs : List Byte} {i : Instr} (h : Sys2Proof.decode f bs = .ok i) : i.wf = true :=
  let ⟨hwf, _⟩ := decodedRequestIsItsOwnEncoding f bs i h
  hwf

theorem eq_of_ite_operation {p : Prop} [Decidable p] {i j : Instr}
    (h : (if p then Fetched.operation i else .refusal .wrongAgent) = .operation j) : i = j := by
  split at h <;> cases h
  rfl

theorem wf_of_fetchRequest {a : Agent} {f : Bool} {bs : List Byte} {i : Instr}
    (h : fetchRequest a f bs = .operation i) : i.wf = true := by
  unfold fetchRequest at h
  split at h
  next => cases h
  next hj => exact eq_of_ite_operation h ▸ wf_of_decode hj

theorem wf_of_fetchPort {f : Bool} {bs : List Byte} {i : Instr} (h : fetchPort f bs = .operation i) : i.wf = true := by
  unfold fetchPort at h
  split at h
  next => cases h
  next hj => exact eq_of_ite_operation h ▸ wf_of_decode hj

/-- What a move brings is well formed: a decoded request or an autonomous step (30_encoding.md R70). -/
theorem wf_of_fetch {m : Move} {s : State} {i : Instr} (h : fetch m s = .operation i) : i.wf = true := by
  cases m with
  | fg | cmdRx =>
    simp only [fetch] at h
    split at h
    · exact wf_of_fetchRequest h
    · cases h
  | linkInit =>
    simp only [fetch] at h
    split at h
    · cases h
    · exact wf_of_fetchRequest h
  | chunkAck =>
    simp only [fetch] at h
    exact wf_of_fetchRequest h
  | request bytes => exact wf_of_fetchPort h
  | seqPush | ceCopy | beginSend => cases h; rfl
  | fgExtend | hostLinkUp | hostCommand | hwSetup | deviceReset => cases h

/-- What a step takes up is well formed; so no step is a grant of 0 (30_encoding.md R74). -/
theorem wf_of_stepOp {s : State} {i : Instr} (h : s.stepOp = some i) : i.wf = true := by
  unfold State.stepOp at h
  split at h
  next j hj => cases h; exact wf_of_fetch hj
  next => cases h
  next => cases h
  next => cases h

/-- BEGIN_SEND is enabled, for the block of identity `id`. -/
def State.SendWaits (s : State) (id : Option Nat) : Prop := s.sendReady = true ∧ s.curId = id

theorem sendWaits_of_sameBlock {s t : State} {id : Option Nat} (h : s.SameBlock t) (hw : s.SendWaits id) :
    t.SendWaits id := by
  rw [State.SameBlock] at h
  rw [h]
  exact hw

/-- With no block in flight no operation but BEGIN_SEND puts one in flight, and none but LINK_INIT and a grant of 0 takes
the credit away (42_streaming.md R146, R152). -/
theorem effect_keeps_credit {i : Instr} {s : State} (hwf : i.wf = true) (hinit : i ≠ .linkInit) (hbegin : i ≠ .beginSend)
    (hf : s.inFlight = false) (hcredit : s.credit ≠ 0#8) :
    (effect i s).inFlight = false ∧ (effect i s).credit ≠ 0#8 := by
  cases i with
  | linkInit => exact absurd rfl hinit
  | beginSend => exact absurd rfl hbegin
  | grantCredit n => exact ⟨rfl, bne_iff_ne.1 hwf⟩
  | chunkAck | chunkAckStray | ceCopy => simpa [effect, hf] using hcredit
  | startCapture | waitCapture | decode | cmdBadLen | cmdBadOp | grantZero | seqPush | reserved => exact ⟨hf, hcredit⟩

/-- A waiting send waits on under every well-formed operation but itself, DECODE and LINK_INIT. -/
theorem sendWaits_effect {i : Instr} {s : State} {id : Option Nat} (hwf : i.wf = true) (hdecode : i ≠ .decode)
    (hinit : i ≠ .linkInit) (hbegin : i ≠ .beginSend) (hw : s.SendWaits id) : (effect i s).SendWaits id := by
  obtain ⟨hready, hid⟩ := hw
  obtain ⟨hf, hcredit, hsome, hne⟩ := (sendReady_iff s).1 hready
  obtain ⟨hf', hcredit'⟩ := effect_keeps_credit hwf hinit hbegin hf hcredit
  have hcur := effect_curId s hdecode
  refine ⟨(sendReady_iff _).2 ⟨hf', hcredit', ?_⟩, hcur.trans hid⟩
  rw [hcur, effect_lastSent s hinit hbegin]
  exact ⟨hsome, hne⟩

/-- A waiting send waits on over a step that neither begins it, nor decodes, nor brings the link up, nor resets the device. -/
theorem sendWaits_step {s t : State} {id : Option Nat} (h : step s = .next t) (hdecode : s.stepOp ≠ some .decode)
    (hinit : s.stepOp ≠ some .linkInit) (hbegin : s.stepOp ≠ some .beginSend) (hm : ¬ s.resetsNext)
    (hw : s.SendWaits id) : t.SendWaits id := by
  cases hop : s.stepOp with
  | none => exact sendWaits_of_sameBlock (sameBlock_of_step h hop hm) hw
  | some i =>
    obtain ⟨u, hu, hexec⟩ := exec_of_step h hop
    replace hw := sendWaits_of_sameBlock hu hw
    rw [hop, ne_eq, Option.some.injEq] at hdecode hinit hbegin
    obtain ⟨-, rfl⟩ | ⟨-, rfl⟩ := exec_next hexec
    · exact sendWaits_effect (wf_of_stepOp hop) hdecode hinit hbegin hw
    · exact hw

/-- The step that takes up BEGIN_SEND begins the waiting send (42_streaming.md R152). -/
theorem begun_of_step {s t : State} {id : Option Nat} (h : step s = .next t) (hop : s.stepOp = some .beginSend)
    (hw : s.SendWaits id) : t.inFlight = true ∧ t.lastSent = id := by
  obtain ⟨u, hu, hexec⟩ := exec_of_step h hop
  obtain ⟨hready, hid⟩ := sendWaits_of_sameBlock hu hw
  rw [exec_link_of_enabled (i := .beginSend) rfl hready] at hexec
  cases hexec
  exact ⟨rfl, hid⟩

end Sys2Proof.Machine
end

section
/-! PROOFS. The statements of 42_streaming.md about sends, and the sender's progress. -/

namespace Sys2Proof.Machine

/-- Settles O43: the send runs acknowledgement by acknowledgement, and its chunks are the block cut into pieces. -/
theorem undisturbedSendDeliversTheBlock : Obligations.UndisturbedSendDeliversTheBlock := by
  intro s hc hready hq
  obtain ⟨hcredit, -⟩ := sendReady_imp hready
  obtain ⟨os, d, hrun⟩ := execAll_send hc hready hq
  exact ⟨_, s.blockChunks s.cursor, hrun, rfl, blockBytes_eq s.cfg, rfl, toNat_sub_one hcredit, rfl,
    blockChunks_length s s.cursor, blockChunks_flatten s s.cursor, fun _ _ => blockChunks_getElem?_length⟩

/-- Settles O44: the grant leaves the stale transfer pending, the DECODE gives a current block to send, and its send advances
on the stale completion. -/
theorem staleCompletionCountsForTheNewBlock : Obligations.StaleCompletionCountsForTheNewBlock := by
  intro s x n _ hs harmed _ hq hn hm hne
  obtain ⟨u, hrun, hcfg, hcursor, hvalid, hf, hcredit, hlast, hrx, hlen⟩ := execAll_grant_decode n hs harmed
  obtain ⟨y, hy⟩ := List.length_eq_one_iff.1 (hlen.trans (by rw [hq]; rfl))
  have hid : u.curId = some ((s.cursor + 1) % s.cfg.ringN) := hcursor ▸ curId_of_slot hvalid (hcfg ▸ hm)
  have hready : u.sendReady = true :=
    (sendReady_iff u).2 ⟨hf, hcredit ▸ hn, by rw [hid]; nofun, by rw [hid, hlast]; exact hne.symm⟩
  have hbegin : exec .beginSend u = .next (beginSend u) := exec_link_of_enabled rfl hready
  obtain ⟨v, hack, hoffset, hrx', hhead, hmore⟩ := exec_chunkAck_of_stale hy
  rw [hcfg] at hoffset hmore
  rw [hrx] at hrx'
  refine ⟨beginSend u, v, ?_, rfl, rfl, hcursor, ?_, hack, hoffset, hrx', hhead, hmore⟩
  · rw [show [.grantCredit n, .decode, .beginSend] = [.grantCredit n, .decode] ++ [Instr.beginSend] from rfl,
      execAll_append, hrun]
    exact execAll_cons hbegin
  · rw [beginSend_eq, hy]
    rfl

/-- Settles O45, by induction on the sequence: each of its operations leaves the current block the last one sent, for which
BEGIN_SEND is stuck. -/
theorem noSendWithoutANewBlock : Obligations.NoSendWithoutANewBlock := by
  refine ⟨fun s t hready h => ?_, fun is s t hsent hne h => ?_⟩
  · rw [exec_link_of_enabled (i := .beginSend) rfl hready] at h
    cases h
    obtain ⟨-, hvalid, -⟩ := sendReady_imp hready
    exact ⟨rfl, hvalid⟩
  · have hsent' : t.lastSent = t.curId :=
      execAll_keeps (P := fun u => u.lastSent = u.curId) (fun i hi u v hu hexec => by
        obtain ⟨hdecode, hinit⟩ := hne i hi
        obtain ⟨-, rfl⟩ | ⟨-, rfl⟩ := exec_next hexec
        · exact effect_lastSent_eq_curId hdecode hinit hu
        · exact hu) hsent h
    exact ⟨hsent', exec_link_of_stuck rfl (sendReady_eq_false (.inr (.inr (.inr hsent'.symm))))⟩

/-- Settles O46: the link start and the grant leave N credits and no send under way, and each round takes one. -/
theorem nCompleteSendsExhaustTheCredit : Obligations.NCompleteSendsExhaustTheCredit := by
  intro s n hc hs _
  have hinit : exec .linkInit s = .next (linkInit s) := exec_link_of_enabled rfl rfl
  have hgrant : exec (.grantCredit n) (linkInit s) = .next (effect (.grantCredit n) (linkInit s)) :=
    exec_link_of_enabled rfl rfl
  obtain ⟨t, hrun, ht, hzero, hrx⟩ := execAll_sendRounds (s := effect (.grantCredit n) (linkInit s)) (m := n.toNat) hc
    ⟨hs, rfl, rfl, .inl rfl⟩ rfl
  have hidle : t.ssmState = .idle := by simp [State.ssmState, ht.idle, hzero]
  exact ⟨t, (execAll_cons hinit).trans ((execAll_cons hgrant).trans hrun), hzero, ht.idle, hidle, ht.empty, hrx⟩

/-- Settles O58: until it begins the send waits on, so BEGIN_SEND stays enabled, and a fair run takes it. -/
theorem fairSenderBeginsTheSend : Obligations.FairSenderBeginsTheSend := by
  intro r n hrun hfair hready
  by_contra hno
  push Not at hno
  have hbegin (m : Nat) (hm : n ≤ m) (hw : (r m).SendWaits (r n).curId) : (r m).stepOp ≠ some .beginSend := by
    intro hop
    obtain ⟨t, ms, hstep, hnext⟩ := hrun m
    obtain ⟨hf, hlast⟩ := begun_of_step hstep hop hw
    obtain ⟨-, -, -, hstart⟩ := hno m hm
    exact hstart hop (by rw [hnext]; exact hf) (by rw [hnext]; exact hlast)
  have hwaits (m : Nat) (hm : n ≤ m) : (r m).SendWaits (r n).curId := by
    induction m, hm using Nat.le_induction with
    | base => exact ⟨hready, rfl⟩
    | succ m hm ih =>
      obtain ⟨t, ms, hstep, hnext⟩ := hrun m
      obtain ⟨hdecode, hinit, hreset, -⟩ := hno m hm
      have ht := sendWaits_step hstep hdecode hinit (hbegin m hm ih) hreset ih
      rw [hnext]
      exact ht
  obtain ⟨m, hm, hop⟩ := hfair n fun m hm => (hwaits m hm).1
  exact hbegin m hm (hwaits m hm) hop

end Sys2Proof.Machine
end

section
/-! SUPPORT. The agents' events and the state each operation owns: what a step of LINK and of the environment brings, the
pending command under each operation, and the operations that one side of the block hides from the other. -/

namespace Sys2Proof.Machine

/-! ## What a step of LINK and of the environment brings -/

/-- A move that brings nothing is taken, and nothing else happens. -/
theorem step_of_nothing {s : State} {m : Move} {ms : List Move} (hc : s.cfg.ok = true) (hm : s.moves = m :: ms)
    (hf : fetch m { s with moves := ms } = .nothing) : step s = .next { s with moves := ms } := by
  simp only [step, hc, if_true, nextMove_of_moves hm, takeMove_of_moves hm, hf]

/-- A move of the environment is made on the state without it. -/
theorem step_of_environment {s : State} {m : Move} {ms : List Move} (hc : s.cfg.ok = true) (hm : s.moves = m :: ms)
    (hf : fetch m { s with moves := ms } = .environment) :
    step s = .next (environmentMove m { s with moves := ms }) := by
  simp only [step, hc, if_true, nextMove_of_moves hm, takeMove_of_moves hm, hf]

/-- The code 0x9 spells a row of CMD_RX (30_encoding.md R71, R74). -/
theorem isCommand_of_decode {f : Bool} {payload : List Byte} {i : Instr}
    (h : Sys2Proof.decode f (opByte 0x9#4 :: payload) = .ok i) : IsCommand i := by
  rw [decode_opByte] at h
  cases isRow_of_decodeOp h with
  | cmdBadLen => exact .inl ⟨_, rfl⟩
  | cmdBadOp => exact .inr (.inl ⟨_, _, rfl⟩)
  | grantZero => exact .inr (.inr (.inl rfl))
  | grantCredit => exact .inr (.inr (.inr ⟨_, rfl⟩))
  | reserved hop => cases hop

/-- LINK's move brings the link's bring-up as long as one is pending (60_exceptions.md R173). -/
theorem fetch_linkInit {s : State} (h : s.initPending ≠ 0) : fetch .linkInit s = .operation .linkInit := by
  simp only [fetch, if_neg h]
  exact fetchRequest_of_agent (decode_of_isRow .linkInit) (.inl rfl)

/-- LINK's move brings the row of CMD_RX that the pending payload selects (30_encoding.md R74). -/
theorem fetch_cmdRx {s : State} {payload : List Byte} {i : Instr} (hp : s.cmdPending = some payload)
    (hd : Sys2Proof.decode s.inFlight (opByte 0x9#4 :: payload) = .ok i) : fetch .cmdRx s = .operation i := by
  simp only [fetch, hp]
  exact fetchRequest_of_agent hd (.inl (agentOf_command (isCommand_of_decode hd)))

/-- The completion comes as the row that `in_flight` selects (42_streaming.md R155, R156). -/
theorem fetch_chunkAck (s : State) : fetch .chunkAck s = .operation (ackRow s.inFlight) :=
  fetchRequest_of_agent (decode_of_isRow (isRow_ackRow s.inFlight)) (.inl (agentOf_ackRow s.inFlight))

/-- The command LINK takes is consumed if the channel is armed, and stays pending if it is not (42_streaming.md R142). -/
theorem issue_cmdRx {i : Instr} (hi : IsCommand i) (s : State) :
    issue .cmdRx i s = { s with cmdPending := if s.cmdArmed then none else s.cmdPending } := by
  rw [issue, enabled_command hi]
  split <;> rfl

/-- Without a pending transfer no row of CHUNK_ACK has a step (42_streaming.md R155, R156). -/
theorem enabled_ackRow_eq_false {s : State} (f : Bool) (hq : s.xferQ = []) : enabled (ackRow f) s = false := by
  cases f <;> simp [ackRow, enabled, State.ackReady, hq]

/-- The host can complete a receive of an armed channel while no other is pending (42_streaming.md R162). -/
theorem canReceive_iff {s : State} {payload : List Byte} :
    s.canReceive payload = true ↔ s.cmdArmed = true ∧ s.cmdPending = none ∧ payload.length ≤ Config.maxPayload := by
  simp only [State.canReceive, Bool.and_eq_true, Option.isNone_iff_eq_none, decide_eq_true_eq, and_assoc]

/-! ## The pending command -/

/-- An enabled operation other than LINK_INIT leaves `cmd_armed`: a CMD_RX finds the channel armed and arms it again
(10_state.md R31, 42_streaming.md R142, R147). -/
theorem effect_cmdArmed {i : Instr} {s : State} (he : enabled i s = true) (hi : i ≠ .linkInit) :
    (effect i s).cmdArmed = s.cmdArmed := by
  cases i with
  | linkInit => exact absurd rfl hi
  | cmdBadLen | cmdBadOp | grantZero | grantCredit => exact Eq.symm he
  | chunkAck => simp only [effect]; split <;> simp
  | chunkAckStray => exact completeTransfer_cmdArmed s
  | ceCopy => exact copyWord_cmdArmed s
  | startCapture | waitCapture | decode | seqPush | beginSend | reserved => rfl

/-- No operation touches the pending command: taking it up is what consumes it (60_exceptions.md R173). -/
theorem effect_cmdPending (i : Instr) (s : State) : (effect i s).cmdPending = s.cmdPending := by
  cases i with
  | chunkAck | linkInit | cmdBadLen | cmdBadOp | grantZero | grantCredit | chunkAckStray | beginSend =>
    rw [effect_link_frame s rfl]
  | ceCopy => exact copyWord_cmdPending s
  | startCapture | waitCapture | decode | seqPush | reserved => rfl

theorem pendingInv_of_none {s : State} (h : s.cmdPending = none) : s.PendingInv where
  armed := fun hp => absurd h hp
  length := fun _ hp => by rw [h] at hp; cases hp

theorem pendingInv_of_armed {s t : State} (ha : s.cmdArmed = true → t.cmdArmed = true) (hp : t.cmdPending = s.cmdPending)
    (hs : s.PendingInv) : t.PendingInv where
  armed := fun h => ha (hs.armed (hp ▸ h))
  length := fun payload h => hs.length payload (hp ▸ h)

theorem pendingInv_takeMove {s : State} (hs : s.PendingInv) : s.takeMove.PendingInv :=
  pendingInv_of_armed (fun ha => (takeMove_cmdArmed s).trans ha) (takeMove_cmdPending s) hs

/-- Issuing a request consumes the pending command or leaves it (60_exceptions.md R173). -/
theorem pendingInv_issue {s : State} (m : Move) (i : Instr) (hs : s.PendingInv) : (issue m i s).PendingInv := by
  unfold issue
  split
  · cases m with
    | cmdRx => exact pendingInv_of_none rfl
    | fg | linkInit | chunkAck | seqPush | ceCopy | beginSend | request | fgExtend | hostLinkUp | hostCommand | hwSetup |
      deviceReset => exact { hs with }
  · exact hs

/-- A command the host makes pending is one of an armed channel (42_streaming.md R162); the device reset, which disarms the
channel, leaves none pending (60_exceptions.md R173). -/
theorem pendingInv_environmentMove {s : State} (m : Move) (hs : s.PendingInv) : (environmentMove m s).PendingInv := by
  obtain ⟨-, he⟩ | ⟨ops, k, c, d, he, hcmd, -⟩ := environmentMove_cases m s
  · rw [he]
    exact pendingInv_of_none rfl
  · rw [he]
    obtain rfl | ⟨payload, rfl, hr⟩ := hcmd
    · exact { hs with }
    · obtain ⟨harmed, -, hlen⟩ := canReceive_iff.1 hr
      exact ⟨fun _ => harmed, fun p hp => Option.some.inj hp ▸ hlen⟩

/-- LINK_INIT arms the channel and the others leave it, and none touches the pending command (42_streaming.md R141, R142). -/
theorem pendingInv_effect {i : Instr} {s : State} (he : enabled i s = true) (hs : s.PendingInv) :
    (effect i s).PendingInv := by
  refine pendingInv_of_armed (fun ha => ?_) (effect_cmdPending i s) hs
  by_cases hi : i = .linkInit
  · rw [hi]; rfl
  · rw [effect_cmdArmed he hi, ha]

/-! ## The capture side hidden from LINK -/

/-- `s` with the capture side of `c`: what LINK neither reads nor writes (60_exceptions.md R180). -/
def State.withCaptureOf (s c : State) : State :=
  { s with
    front := c.front, buf0 := c.buf0, buf1 := c.buf1, ceDst := c.ceDst, ceIdx := c.ceIdx, ceBusy := c.ceBusy,
    capStarted := c.capStarted, seqEn := c.seqEn, seqPc := c.seqPc, rxq := c.rxq, setupDone := c.setupDone }

@[simp] theorem withCaptureOf_inFlight (s c : State) : (s.withCaptureOf c).inFlight = s.inFlight := rfl

theorem sameLink_iff {s t : State} : s.SameLink t ↔ t = s.withCaptureOf t := Iff.rfl

theorem sameLink_withCaptureOf (s c : State) : s.SameLink (s.withCaptureOf c) := rfl

theorem enabled_link_withCaptureOf {i : Instr} (ha : agentOf i = some .link) (s c : State) :
    enabled i (s.withCaptureOf c) = enabled i s := by
  cases i with
  | linkInit | cmdBadLen | cmdBadOp | grantZero | grantCredit | chunkAck | chunkAckStray | beginSend => rfl
  | startCapture | waitCapture | decode | seqPush | ceCopy | reserved => cases ha

theorem completeTransfer_withCaptureOf (s c : State) :
    completeTransfer (s.withCaptureOf c) = (completeTransfer s).withCaptureOf c := by
  cases hq : s.xferQ with
  | nil => simp [completeTransfer, State.withCaptureOf, hq]
  | cons x rest => rw [completeTransfer_cons hq, completeTransfer_cons (s := s.withCaptureOf c) hq]; rfl

theorem advanceSend_withCaptureOf (s c : State) :
    advanceSend (s.withCaptureOf c) = (advanceSend s).withCaptureOf c := by
  by_cases hlt : s.offset + chunkLen s.cfg s.offset < s.cfg.blockBytes
  · rw [advanceSend_of_lt hlt, advanceSend_of_lt (s := s.withCaptureOf c) hlt]; rfl
  · rw [advanceSend_of_le (Nat.not_lt.1 hlt), advanceSend_of_le (s := s.withCaptureOf c) (Nat.not_lt.1 hlt)]; rfl

/-- LINK's operations do the same whatever the capture side is, and carry it through (60_exceptions.md R180,
70_reset_and_hazards.md R206). -/
theorem effect_link_withCaptureOf {i : Instr} (ha : agentOf i = some .link) (s c : State) :
    effect i (s.withCaptureOf c) = (effect i s).withCaptureOf c := by
  cases i with
  | linkInit | cmdBadLen | cmdBadOp | grantZero | grantCredit | beginSend => rfl
  | chunkAckStray => exact completeTransfer_withCaptureOf s c
  | chunkAck =>
    simp only [effect, withCaptureOf_inFlight, completeTransfer_withCaptureOf, advanceSend_withCaptureOf]
    split <;> rfl
  | startCapture | waitCapture | decode | seqPush | ceCopy | reserved => cases ha

/-! ## What the frames of single operations leave open -/

/-- A word of a capture buffer is read from that buffer's written elements and the reset draws (10_state.md R23). -/
theorem bufWord_eq (s : State) (b : BufId) (j : Nat) :
    s.bufWord b j = (Memory.read (if b = .b0 then s.buf0 else s.buf1) j).getD (Config.bufAtReset s.epoch b.toNat j) := by
  cases b <;> rfl

/-- BEGIN_SEND issues an untainted chunk, so it takes no draw (42_streaming.md R152, R153). -/
theorem beginSend_draws (s : State) : (beginSend s).draws = s.draws := rfl

end Sys2Proof.Machine
end

section
/-! PROOFS. The statements of 60_exceptions.md. -/

namespace Sys2Proof.Machine

/-- Settles O60: a step takes its move, then is a move of the environment, or issues a request and runs its operation; each of the
four keeps the invariant. -/
theorem stepKeepsThePendingCommandArmed : Obligations.StepKeepsThePendingCommandArmed := by
  intro s t hs h
  have htake := pendingInv_takeMove hs
  obtain ⟨-, ⟨-, rfl⟩ | ⟨-, rfl⟩ | ⟨i, -, hexec⟩⟩ := step_next h
  · exact htake
  · exact pendingInv_environmentMove s.nextMove htake
  · have hissue := pendingInv_issue s.nextMove i htake
    obtain ⟨he, rfl⟩ | ⟨-, rfl⟩ := exec_next hexec
    · exact pendingInv_effect he hissue
    · exact hissue

/-- Settles O11: a reserved code has no meaning, a foreground operation asks for the setup, and the others answer a next state
in every state. -/
theorem onlyReservedAndUnsetHardwareAreRefused : Obligations.OnlyReservedAndUnsetHardwareAreRefused := by
  intro i s
  cases i with
  | reserved op => exact .inl ⟨op, rfl, rfl⟩
  | startCapture | waitCapture | decode =>
    cases hs : s.setupDone with
    | true => exact .inr (.inr ⟨nofun, fun _ => rfl, _, exec_of_fg hs rfl⟩)
    | false => exact .inr (.inl ⟨rfl, rfl, if_neg (by simp [hs])⟩)
  | linkInit | cmdBadLen | cmdBadOp | grantZero | grantCredit | chunkAck | chunkAckStray | seqPush | ceCopy | beginSend =>
    exact .inr (.inr ⟨nofun, nofun, _, rfl⟩)

/-- Settles O29: a stuck operation writes nothing, and an enabled one only what its own effect names: a CMD_RX finds the channel
armed and leaves it armed, and a CHUNK_ACK completes a transfer, then advances a block in flight. -/
theorem onlyOwnersWriteEachState : Obligations.OnlyOwnersWriteEachState := by
  intro i s t h
  obtain ⟨he, rfl⟩ | ⟨-, rfl⟩ := exec_next h
  · cases i with
    | startCapture | waitCapture | decode | linkInit | seqPush | ceCopy | chunkAckStray =>
      simp [effect, bufWord_eq, State.ringEntry]
    | beginSend => simp [effect, bufWord_eq, State.ringEntry, beginSend_draws]
    | cmdBadLen | cmdBadOp | grantZero | grantCredit =>
      have harmed : s.cmdArmed = true := he
      simp [effect, bufWord_eq, State.ringEntry, harmed]
    | chunkAck =>
      simp only [effect]
      split <;> simp [bufWord_eq, State.ringEntry]
    | reserved => cases h
  · simp

/-- Settles O30: the guard and the effect of a LINK operation commute with replacing the capture side. -/
theorem linkOperationsIgnoreCapture : Obligations.LinkOperationsIgnoreCapture := by
  intro i s t s' ha hst h
  rw [sameLink_iff] at hst
  obtain ⟨he, rfl⟩ | ⟨he, rfl⟩ := exec_next h
  · refine ⟨effect i t, exec_link_of_enabled ha (by rw [hst, enabled_link_withCaptureOf ha, he]), ?_, ?_⟩
    · rw [hst, effect_link_withCaptureOf ha]
      exact sameLink_withCaptureOf _ _
    · rw [effect_link_frame t ha]
      rfl
  · exact ⟨t, exec_link_of_stuck ha (by rw [hst, enabled_link_withCaptureOf ha, he]), hst, rfl⟩

/-- Settles O7: each event is fetched as the row it decodes to. -/
theorem stepRunsLinkEvent : Obligations.StepRunsLinkEvent := by
  intro s ms hc
  have hack (hm : s.moves = .chunkAck :: ms) : step s = exec (ackRow s.inFlight) { s with moves := ms } := by
    rw [step_of_operation hc hm (fetch_chunkAck _), issue_of_retire_eq _ rfl]
  refine ⟨fun k hm hk => ?_, fun hm h0 => ?_, fun payload i hm hp hd => ?_, fun hm hp => ?_, hack, fun hm hq => ?_⟩
  · rw [step_of_operation hc hm (fetch_linkInit (by simp [hk]))]
    simp [issue, enabled, retire, hk]
  · exact step_of_nothing hc hm (if_pos h0)
  · rw [step_of_operation hc hm (fetch_cmdRx hp hd), issue_cmdRx (isCommand_of_decode hd)]
    simp only [hp]
  · exact step_of_nothing hc hm (by simp only [fetch, hp])
  · exact (hack hm).trans (exec_link_of_stuck (agentOf_ackRow _) (enabled_ackRow_eq_false _ hq))

/-- Settles O59: each is a move of the environment, and a receive the host cannot complete is none. -/
theorem environmentAddsEvents : Obligations.EnvironmentAddsEvents := by
  intro s ms hc
  refine ⟨fun hm => step_of_environment hc hm rfl, fun payload hm => ⟨fun harmed hp hlen => ?_, fun habsent => ?_⟩,
    fun op hm => step_of_environment hc hm rfl⟩
  · exact (step_of_environment hc hm rfl).trans (congrArg _ (if_pos (canReceive_iff.2 ⟨harmed, hp, hlen⟩)))
  · refine (step_of_environment hc hm rfl).trans (congrArg _ (if_neg fun hr => ?_))
    obtain ⟨harmed, hp, hlen⟩ := canReceive_iff.1 hr
    obtain h | h | h := habsent
    · rw [h] at harmed; cases harmed
    · exact h hp
    · exact Nat.not_lt.2 hlen h

end Sys2Proof.Machine
end

section
/-! SUPPORT. The state a reset gives, steps that leave the block as it was, and publishes with no send between them. -/

namespace Sys2Proof.Machine

/-! ## The reset state

A device reset gives a reset state but for the bookkeeping, and the invariants read none of that. -/

theorem storageInv_resetWith (p : Config.Params) (e : Nat) : (State.resetWith p e).StorageInv :=
  { storageInv_deviceReset (State.resetWith p e) with }

theorem captureInv_resetWith (p : Config.Params) (e : Nat) : (State.resetWith p e).CaptureInv :=
  { captureInv_deviceReset (State.resetWith p e) with }

theorem sessionInv_resetWith {p : Config.Params} (hp : p.ok = true) (e : Nat) : (State.resetWith p e).SessionInv :=
  { sessionInv_deviceReset (s := State.resetWith p e) hp with }

theorem transferInv_resetWith (p : Config.Params) (e : Nat) : (State.resetWith p e).TransferInv where
  size := nofun
  data := nofun

/-- Of the operations with a meaning only START_CAPTURE, DECODE and LINK_INIT have a step in a reset state
(70_reset_and_hazards.md R192). -/
theorem enabled_resetWith_eq_false (p : Config.Params) (e : Nat) {i : Instr} (hstart : i ≠ .startCapture)
    (hdecode : i ≠ .decode) (hinit : i ≠ .linkInit) (hreserved : ∀ op, i ≠ .reserved op) :
    enabled i (State.resetWith p e) = false := by
  cases i with
  | startCapture => exact absurd rfl hstart
  | decode => exact absurd rfl hdecode
  | linkInit => exact absurd rfl hinit
  | reserved op => exact absurd rfl (hreserved op)
  | waitCapture | cmdBadLen | cmdBadOp | grantZero | grantCredit | chunkAck | chunkAckStray | seqPush | ceCopy |
    beginSend => rfl

/-! ## Steps that leave the block as it was -/

/-- An operation with its guard false has no step; a foreground one is stuck, and not refused, after the hardware setup
(00_scope.md R12, 70_reset_and_hazards.md R196). -/
theorem exec_of_stuck {i : Instr} {s : State} (he : enabled i s = false) (hs : agentOf i = some .fg → s.setupDone = true) :
    exec i s = .next s := by
  cases i with
  | startCapture | decode | linkInit | reserved => cases he
  | waitCapture => exact exec_waitCapture_stuck (hs rfl) he
  | seqPush | ceCopy => rw [exec_of_not_fg s rfl (by decide), he, if_neg Bool.false_ne_true]
  | cmdBadLen | cmdBadOp | grantZero | grantCredit | chunkAck | chunkAckStray | beginSend => exact exec_link_of_stuck rfl he

/-- What a move brings in a state where it has no step: nothing, or a stuck operation (00_scope.md R12). -/
inductive BringsNoStep (m : Move) (s : State) : Prop where
  | nothing (hf : fetch m s = .nothing)
  | stuck {i : Instr} (hf : fetch m s = .operation i) (he : enabled i s = false)
      (hs : agentOf i = some .fg → s.setupDone = true)

/-- A move that has no step is taken, and nothing else happens. -/
theorem step_of_bringsNoStep {s : State} (hc : s.cfg.ok = true) (h : BringsNoStep s.nextMove s.takeMove) :
    step s = .next s.takeMove := by
  cases h with
  | nothing hf => simp only [step, hc, if_true, hf]
  | @stuck i hf he hs =>
    have hissue : issue s.nextMove i s.takeMove = s.takeMove := by rw [issue, he, if_neg Bool.false_ne_true]
    simp only [step, hc, if_true, hf, hissue, exec_of_stuck he hs]

theorem quiescent_takeMove {s : State} (h : s.Quiescent) : s.takeMove.Quiescent := by
  simpa [State.Quiescent, State.captureDone, State.ceReady, State.sendReady, State.curId] using h

/-- In a quiescent state no move has a step but a push of the sequencer or a move of the environment
(70_reset_and_hazards.md R195). -/
theorem bringsNoStep_of_quiescent {s : State} {m : Move} (h : s.Quiescent) (hpush : ∀ w, m ≠ .seqPush w)
    (henv : ofEnvironment m = false) : BringsNoStep m s := by
  obtain ⟨hfg, hce, hsend, hq, hinit, hcmd⟩ := h
  cases m with
  | fg =>
    obtain hend | ⟨hwait, hs, hd⟩ := hfg
    · exact .nothing (by simp only [fetch, hend])
    · obtain ⟨rest, hn⟩ := List.head?_eq_some_iff.1 hwait
      exact .stuck (fetch_fg hn (decode_of_isRow .waitCapture) (.inl rfl)) hd fun _ => hs
  | linkInit => exact .nothing (if_pos hinit)
  | cmdRx => exact .nothing (by simp only [fetch, hcmd])
  | chunkAck =>
    refine .stuck (fetch_chunkAck s) (enabled_ackRow_eq_false _ hq) fun ha => ?_
    rw [agentOf_ackRow] at ha
    cases ha
  | ceCopy => exact .stuck rfl hce nofun
  | beginSend => exact .stuck rfl hsend nofun
  | seqPush w => exact absurd rfl (hpush w)
  | request | fgExtend | hostLinkUp | hostCommand | hwSetup | deviceReset => cases henv

/-! ## Publishes with no send between them -/

/-- `t` is `s` after `k` publishes and nothing else, as far as the guard of BEGIN_SEND reads it. -/
structure State.AfterPublishes (s : State) (k : Nat) (t : State) : Prop where
  cfg : t.cfg = s.cfg
  cursor : s.cursor < s.cfg.ringN → t.cursor = (s.cursor + k) % s.cfg.ringN
  valid : s.valid = true ∨ k ≠ 0 → t.valid = true
  pubCount : t.pubCount = s.pubCount + k
  credit : t.credit = s.credit
  inFlight : t.inFlight = s.inFlight
  lastSent : t.lastSent = s.lastSent

theorem State.afterPublishes_zero (s : State) : s.AfterPublishes 0 s where
  cfg := rfl
  cursor := fun hlt => (Nat.mod_eq_of_lt hlt).symm
  valid := fun h => h.resolve_right (not_not.2 rfl)
  pubCount := rfl
  credit := rfl
  inFlight := rfl
  lastSent := rfl

/-- A DECODE before `k` publishes makes them one more (41_decoder.md R122). -/
theorem State.AfterPublishes.of_decodeBlock {s t : State} {k : Nat} (h : (decodeBlock s).AfterPublishes k t) :
    s.AfterPublishes (k + 1) t where
  cfg := h.cfg
  cursor := fun hlt => by
    have htarget : s.targetSlot < s.cfg.ringN := Nat.mod_lt _ (Nat.zero_lt_of_lt hlt)
    rw [h.cursor htarget, decodeBlock_cursor, decodeBlock_cfg, State.targetSlot, Nat.mod_add_mod, Nat.add_assoc,
      Nat.add_comm 1 k]
  valid := fun _ => h.valid (.inl rfl)
  pubCount := by rw [h.pubCount, decodeBlock_pubCount, Nat.add_assoc, Nat.add_comm 1 k]
  credit := h.credit
  inFlight := h.inFlight
  lastSent := h.lastSent

/-- DECODEs one after the other publish once each (41_decoder.md R122, R123). -/
theorem execAll_decodes {s : State} (hs : s.setupDone = true) (k : Nat) :
    ∃ t, execAll (List.replicate k .decode) s = .next t ∧ s.AfterPublishes k t := by
  induction k generalizing s with
  | zero => exact ⟨s, rfl, s.afterPublishes_zero⟩
  | succ k ih =>
    obtain ⟨t, hrun, ht⟩ := ih (s := decodeBlock s) hs
    exact ⟨t, by rw [List.replicate_succ, execAll_cons (exec_decode hs), hrun], ht.of_decodeBlock⟩

/-- Under `SLOT` whole rounds of the ring bring the cursor, and so the identity, back to where it was (10_state.md R37). -/
theorem curId_afterPublishes_ring {s t : State} {k : Nat} (h : s.AfterPublishes (k * s.cfg.ringN) t)
    (hm : s.cfg.idMode = .slot) (hv : s.valid = true) (hlt : s.cursor < s.cfg.ringN) : t.curId = some s.cursor := by
  rw [curId_of_slot (h.valid (.inl hv)) (h.cfg ▸ hm), h.cursor hlt, Nat.add_mul_mod_self_right, Nat.mod_eq_of_lt hlt]

/-- Under `SEQ` the identity counts every publish (10_state.md R37). -/
theorem curId_afterPublishes_seq {s t : State} {k : Nat} (h : s.AfterPublishes k t) (hm : s.cfg.idMode = .seq)
    (hk : k ≠ 0) : t.curId = some (s.pubCount + k) := by
  rw [curId_of_seq (h.valid (.inr hk)) (h.cfg ▸ hm), h.pubCount]

end Sys2Proof.Machine
end

section
/-! PROOFS. The statements of 70_reset_and_hazards.md. -/

namespace Sys2Proof.Machine

/-- Settles O47: the publishes leave `last_sent`, the identity comes back to it after whole rounds of the ring under `SLOT`, and
under `SEQ` is past it. -/
theorem slotIdentityAliasesAfterAFullRing : Obligations.SlotIdentityAliasesAfterAFullRing := by
  refine ⟨fun s k _ hs hm hv hlt hlast => ?_, fun s k hs hm hf hcredit hlast => ?_⟩
  · obtain ⟨t, hrun, ht⟩ := execAll_decodes hs (k * s.cfg.ringN)
    have hsent : t.curId = t.lastSent := by rw [curId_afterPublishes_ring ht hm hv hlt, ht.lastSent, hlast]
    exact ⟨t, hrun, ht.pubCount, exec_link_of_stuck rfl (sendReady_eq_false (.inr (.inr (.inr hsent))))⟩
  · obtain ⟨t, hrun, ht⟩ := execAll_decodes hs (k + 1)
    have hid : t.curId = some (s.pubCount + (k + 1)) := curId_afterPublishes_seq ht hm (Nat.succ_ne_zero k)
    have hnew : t.curId ≠ t.lastSent := by
      rw [hid, ht.lastSent, hlast]
      exact fun h => absurd (Option.some.inj h) (by omega)
    have hready : t.sendReady = true :=
      (sendReady_iff t).2 ⟨ht.inFlight.trans hf, ht.credit ▸ hcredit, by rw [hid]; nofun, hnew⟩
    exact ⟨t, beginSend t, hrun, exec_link_of_enabled rfl hready, rfl, hid, rfl⟩

/-- Settles O56: the next move brings nothing or a stuck operation, and taking it changes nothing that quiescence reads. -/
theorem quiescentStateRests : Obligations.QuiescentStateRests := by
  intro s hc hq hpush henv
  have htake := quiescent_takeMove hq
  exact ⟨step_of_bringsNoStep hc (bringsNoStep_of_quiescent htake hpush henv), htake⟩

/-- Settles O53, invariant by invariant. -/
theorem resetMeetsTheInvariants : Obligations.ResetMeetsTheInvariants :=
  fun p e hp => ⟨storageInv_resetWith p e, captureInv_resetWith p e, sessionInv_resetWith hp e, transferInv_resetWith p e,
    inTransitInv_of_not_inFlight rfl, pendingInv_of_none rfl⟩

/-- Settles O54: the values are those `State.resetWith` gives, and an operation that answers a next state is stuck there. -/
theorem resetStateIsQuiet : Obligations.ResetStateIsQuiet := by
  rintro p e s rfl
  refine ⟨⟨rfl, rfl, rfl, rfl, rfl⟩, ⟨rfl, rfl, rfl⟩, ⟨rfl, rfl, rfl, rfl, rfl, rfl, rfl, rfl⟩, ⟨rfl, rfl, rfl⟩,
    fun i t hstart hdecode hinit h => ?_⟩
  have hreserved (op : Op4) : i ≠ .reserved op := fun hi => by rw [hi] at h; cases h
  have hstuck := enabled_resetWith_eq_false p e hstart hdecode hinit hreserved
  obtain ⟨he, -⟩ | ⟨-, ht⟩ := exec_next h
  · rw [hstuck] at he
    cases he
  · exact ht

/-- Settles O55: the device reset is a move of the environment. -/
theorem deviceResetGivesAResetState : Obligations.DeviceResetGivesAResetState :=
  fun _ _ hc hm => step_of_environment hc hm rfl

end Sys2Proof.Machine
end
